-- ==== Sys2Proof/Word.lean ====
section
/-! DEFINITION. The bit-vector types of the CHIP-8 core (spec/00_scope.md R6, R8): every value is unsigned. -/

namespace Sys2Proof

/-- A 4-bit field of an opcode: a register index, a count or a minor opcode (R91). -/
abbrev Nibble := BitVec 4

/-- A memory cell, a general register or a timer (R6). -/
abbrev Byte := BitVec 8

/-- The 12-bit address field nnn of an opcode (R91). -/
abbrev Addr := BitVec 12

/-- The index register, the program counter, a stack entry or an opcode (R6, R90). -/
abbrev Word := BitVec 16

end Sys2Proof
end

