-- ==== Sys2Proof/Syntax.lean ====
section
/-! DEFINITION. The instructions: one constructor per row of spec/opcode_table.json (spec/30_encoding.md R95). -/

namespace Sys2Proof

/-- The 35 recognised instructions of R95, with the operand fields their patterns name (R91, R92). -/
inductive Instr where
  /-- 00E0 CLS (R190). -/
  | cls
  /-- 00EE RET (R121). -/
  | ret
  /-- 0nnn SYS nnn (R120). -/
  | sys (nnn : Addr)
  /-- 1nnn JP nnn (R122). -/
  | jp (nnn : Addr)
  /-- 2nnn CALL nnn (R123). -/
  | call (nnn : Addr)
  /-- 3xnn SE Vx, nn (R124). -/
  | seImm (x : Nibble) (nn : Byte)
  /-- 4xnn SNE Vx, nn (R125). -/
  | sneImm (x : Nibble) (nn : Byte)
  /-- 5xy0 SE Vx, Vy (R126). -/
  | seReg (x y : Nibble)
  /-- 6xnn LD Vx, nn (R140). -/
  | ldImm (x : Nibble) (nn : Byte)
  /-- 7xnn ADD Vx, nn (R141). -/
  | addImm (x : Nibble) (nn : Byte)
  /-- 8xy0 LD Vx, Vy (R142). -/
  | ldReg (x y : Nibble)
  /-- 8xy1 OR Vx, Vy (R143). -/
  | orReg (x y : Nibble)
  /-- 8xy2 AND Vx, Vy (R144). -/
  | andReg (x y : Nibble)
  /-- 8xy3 XOR Vx, Vy (R145). -/
  | xorReg (x y : Nibble)
  /-- 8xy4 ADD Vx, Vy (R146). -/
  | addReg (x y : Nibble)
  /-- 8xy5 SUB Vx, Vy (R147). -/
  | subReg (x y : Nibble)
  /-- 8xy6 SHR Vx (R148): y is decoded and ignored. -/
  | shr (x y : Nibble)
  /-- 8xy7 SUBN Vx, Vy (R149). -/
  | subnReg (x y : Nibble)
  /-- 8xyE SHL Vx (R150): y is decoded and ignored. -/
  | shl (x y : Nibble)
  /-- 9xy0 SNE Vx, Vy (R127). -/
  | sneReg (x y : Nibble)
  /-- Annn LD I, nnn (R170). -/
  | ldI (nnn : Addr)
  /-- Bnnn JP V0, nnn (R128). -/
  | jpV0 (nnn : Addr)
  /-- Cxnn RND Vx, nn (R151). -/
  | rnd (x : Nibble) (nn : Byte)
  /-- Dxyn DRW Vx, Vy, n (R191). -/
  | drw (x y n : Nibble)
  /-- Ex9E SKP Vx (R213). -/
  | skp (x : Nibble)
  /-- ExA1 SKNP Vx (R214). -/
  | sknp (x : Nibble)
  /-- Fx07 LD Vx, DT (R210). -/
  | ldVxDt (x : Nibble)
  /-- Fx0A LD Vx, K (R215). -/
  | ldVxK (x : Nibble)
  /-- Fx15 LD DT, Vx (R211). -/
  | ldDtVx (x : Nibble)
  /-- Fx18 LD ST, Vx (R212). -/
  | ldStVx (x : Nibble)
  /-- Fx1E ADD I, Vx (R171). -/
  | addIVx (x : Nibble)
  /-- Fx29 LD F, Vx (R172). -/
  | ldFVx (x : Nibble)
  /-- Fx33 LD B, Vx (R173). -/
  | ldBVx (x : Nibble)
  /-- Fx55 LD [I], Vx (R174). -/
  | storeRegs (x : Nibble)
  /-- Fx65 LD Vx, [I] (R175). -/
  | loadRegs (x : Nibble)
  deriving DecidableEq, Repr

end Sys2Proof
end

