-- ==== Sys2Proof/Config.lean ====
section
/-! DEFINITION. What the spec leaves open (spec/00_scope.md R7): the parameter FONT_TABLE and the inputs of a frame step.
The opaque constants have no body, so a claim about the model holds whatever they are. -/

namespace Sys2Proof

/-- FONT_TABLE, the 80 glyph bytes at 0x000 to 0x04F: a parameter of the model (R7, R66; 92_eei_decisions.md D16).
DESIGN CHOICE, safe: it is left opaque, and no rule depends on its bytes (log entry 3). -/
opaque Config.fontTable : Vector Byte 80

/-- The default of FONT_TABLE that R66 prints. A claim that needs it takes `Config.fontTable = Config.defaultFontTable` as a premise. -/
def Config.defaultFontTable : Vector Byte 80 :=
  #v[0xF0, 0x90, 0x90, 0x90, 0xF0, 0x20, 0x60, 0x20, 0x20, 0x70,
     0xF0, 0x10, 0xF0, 0x80, 0xF0, 0xF0, 0x10, 0xF0, 0x10, 0xF0,
     0x90, 0x90, 0xF0, 0x10, 0x10, 0xF0, 0x80, 0xF0, 0x10, 0xF0,
     0xF0, 0x80, 0xF0, 0x90, 0xF0, 0xF0, 0x10, 0x20, 0x40, 0x40,
     0xF0, 0x90, 0xF0, 0x90, 0xF0, 0xF0, 0x90, 0xF0, 0x10, 0xF0,
     0xF0, 0x90, 0xF0, 0x90, 0x90, 0xE0, 0x90, 0xE0, 0x90, 0xE0,
     0xF0, 0x80, 0x80, 0x80, 0xF0, 0xE0, 0x90, 0x90, 0x90, 0xE0,
     0xF0, 0x80, 0xF0, 0x80, 0xF0, 0xF0, 0x80, 0xF0, 0x80, 0x80]

/-- The 16 key states the host supplies with frame step number f (R7 keys_in(f), R261): any value.
A free value, applied to the counter `frameNo` of State (log entry 1). -/
opaque Config.keysIn : Nat → Vector Bool 16

/-- The byte the port rand_in supplies for draw number d (R153, R265, D18): any value.
A free value, applied to the counter `drawNo` of State (log entry 2). -/
opaque Config.randIn : Nat → Byte

end Sys2Proof
end

