-- ==== Sys2Proof/Machine/State.lean ====
section
/-! DEFINITION. The state of the core (spec/10_state.md R20 to R38), its faults, and its reset value.
Two fields, frameNo and drawNo, are the model's own: they index the free values of Config. -/

namespace Sys2Proof.Machine

/-- The fault conditions of 60_exceptions.md R250, the argument of the spec's `raise Fault(cause)`.
The spec describes taking one as a change of state (R252), so every one of them is taken as a NEXT state with HALT = 1;
no meaning and no step answers `Outcome.fault`. -/
inductive Fault where
  /-- CAUSE 1. Raised by RET with an empty stack (R121). Exact: the rule gives this entry. -/
  | stackUnderflow
  /-- CAUSE 2. Raised by CALL with 16 entries on the stack (R123). Safe: decision D6, the core stops where the source is silent. -/
  | stackOverflow
  /-- CAUSE 3. Raised by the fetch of a cycle with PC above 0xFFE (R63). Safe: decision D5. -/
  | fetchBounds
  /-- CAUSE 4. Raised by DRW, Fx33, Fx55 and Fx65 when an effective address is above 0xFFF (R62). Safe: decision D5. -/
  | dataBounds
  /-- CAUSE 5. Raised by SKP and SKNP when the key number is above 15 (R213, R214). Safe: decision D7. -/
  | keyIndex
  deriving DecidableEq, Repr

/-- Why an instruction has no meaning. Every instruction of this core has one. -/
inductive Refusal where
  /-- Answered only by an arm of `exec` whose instruction has no meaning yet: none. Safe: the machine stops. -/
  | notModelled (mnemonic : String)
  deriving DecidableEq, Repr

/-- MEM (R32, 20_memory.md R61), as the cells that differ from their reset contents, by rising address. -/
abbrev Memory := List Host.Cell

/-- The key states KEYS[0..15] (R28): true is pressed. -/
abbrev Keys := Vector Bool 16

/-- FB[0..31][0..63] (R30): a row is a vector of 64 pixels. -/
abbrev Framebuffer := Vector (Vector Bool 64) 32

/-- The whole state of the core (the tuple at the head of 10_state.md), and the model's two input counters. -/
structure State where
  /-- V[0..15] (R20); V[15] is VF, the only flag (R21). -/
  v : Vector Byte 16
  /-- I (R22). -/
  i : Word
  /-- PC (R23). -/
  pc : Word
  /-- STK (R25): the last element is the top; SP is the length. -/
  stk : List Word
  /-- DT (R26). -/
  dt : Byte
  /-- ST (R27). -/
  st : Byte
  /-- KEYS (R28). -/
  keys : Keys
  /-- WAIT (R29). -/
  wait : Bool
  /-- WAITREG (R29). -/
  waitReg : Nibble
  /-- FB (R30). -/
  fb : Framebuffer
  /-- CHANGED (R31). -/
  changed : Bool
  /-- MEM (R32). -/
  mem : Memory
  /-- HALT (R33). -/
  halt : Bool
  /-- CAUSE (R33): `none` is code 0 (R250). -/
  cause : Option Fault
  /-- MODEL'S OWN: which key input the next frame step samples (log entry 1). -/
  frameNo : Nat
  /-- MODEL'S OWN: which random byte the next RND draws (log entry 2). -/
  drawNo : Nat
  deriving DecidableEq, Repr

/-- After reset and before load (70_reset_and_hazards.md R281, R282; index 10_state.md R38). -/
def State.reset : State where
  v := Vector.replicate 16 0
  i := 0
  pc := 0x200
  stk := []
  dt := 0
  st := 0
  keys := Vector.replicate 16 false
  wait := false
  waitReg := 0
  fb := Vector.replicate 32 (Vector.replicate 64 false)
  changed := false
  mem := []
  halt := false
  cause := none
  frameNo := 0
  drawNo := 0

/-- What a meaning and a step answer. -/
abbrev Result := Host.Outcome State Fault Refusal

end Sys2Proof.Machine
end

