-- ==== Sys2Proof/Machine/Ops.lean ====
section
/-! DEFINITION. The named operations over memory, registers, the stack, the framebuffer and the program counter,
taking a fault, and reset, the only way out of one. Everything a meaning does to the state goes through these. -/

namespace Sys2Proof.Machine

/-! ### Memory (spec/20_memory.md) -/

/-- What a cell holds until something writes it (R66, 70_reset_and_hazards.md R282): FONT_TABLE below 80, else 0 (log entry 9). -/
def Memory.unlisted (a : Nat) : Byte :=
  if h : a < 80 then Config.fontTable[a] else 0

/-- `a` is the address of a memory cell, 0x000 to 0xFFF (R60, R61). -/
def inMemory (a : Nat) : Bool := a ≤ 0xFFF

/-- The byte MEM[a] (R62). The bounds check stands in the instruction, before its first write (R176). -/
def Memory.read : Memory → Nat → Byte
  | [], a => Memory.unlisted a
  | (b, w) :: m, a => if a = b then w else Memory.read m a

/-- MEM[a] <- v (R62), keeping the list sorted and free of cells at their reset contents. -/
def Memory.write : Memory → Nat → Byte → Memory
  | [], a, v => if v = Memory.unlisted a then [] else [(a, v)]
  | (b, w) :: m, a, v =>
    if a < b then
      if v = Memory.unlisted a then (b, w) :: m else (a, v) :: (b, w) :: m
    else if a = b then
      if v = Memory.unlisted a then m else (a, v) :: m
    else (b, w) :: Memory.write m a v

/-- Bytes stored at a, a + 1, ... in ascending order (R62, R64). -/
def Memory.writeBytes : Memory → Nat → List Byte → Memory
  | m, _, [] => m
  | m, a, v :: vs => Memory.writeBytes (Memory.write m a v) (a + 1) vs

/-- The canonical form: addresses of cells, strictly rising, and no cell at its reset contents. -/
abbrev Memory.wf (m : Memory) : Prop :=
  m.Pairwise (fun p q => p.1 < q.1) ∧ ∀ p ∈ m, p.1 ≤ 0xFFF ∧ p.2 ≠ Memory.unlisted p.1

/-! ### Registers and control state: one update per state element (spec/10_state.md R20 to R33) -/

/-- V[x] (R20). -/
def State.reg (s : State) (x : Nibble) : Byte := s.v[x.toNat]'x.isLt

/-- V[x] <- b (R20): no register is hard-wired. -/
def State.setReg (s : State) (x : Nibble) (b : Byte) : State := { s with v := s.v.set x.toNat b x.isLt }

/-- The whole register file at once, for a block load (R175). -/
def State.setRegs (s : State) (v : Vector Byte 16) : State := { s with v := v }

/-- I <- a (R22). -/
def State.setI (s : State) (a : Word) : State := { s with i := a }

/-- PC <- a (R23). -/
def State.setPc (s : State) (a : Word) : State := { s with pc := a }

/-- STK <- k (R25). -/
def State.setStk (s : State) (k : List Word) : State := { s with stk := k }

/-- DT <- b (R26). -/
def State.setDt (s : State) (b : Byte) : State := { s with dt := b }

/-- ST <- b (R27). -/
def State.setSt (s : State) (b : Byte) : State := { s with st := b }

/-- WAIT <- w (R29). -/
def State.setWait (s : State) (w : Bool) : State := { s with wait := w }

/-- WAITREG <- x (R29). -/
def State.setWaitReg (s : State) (x : Nibble) : State := { s with waitReg := x }

/-- FB <- f (R30). -/
def State.setFb (s : State) (f : Framebuffer) : State := { s with fb := f }

/-- CHANGED <- c (R31). -/
def State.setChanged (s : State) (c : Bool) : State := { s with changed := c }

/-- MEM <- m (R32). -/
def State.setMem (s : State) (m : Memory) : State := { s with mem := m }

/-- KEYS <- keysIn as a whole (R28, 45_frame_sequencer.md R233), consuming one key input of the host. -/
def State.sampleKeys (s : State) (keysIn : Keys) : State := { s with keys := keysIn, frameNo := s.frameNo + 1 }

/-- The byte rand_in supplies for this draw (41_alu.md R153). -/
def State.drawn (s : State) : Byte := Config.randIn s.drawNo

/-- One draw consumed (R153, R265: use it once). -/
def State.useDraw (s : State) : State := { s with drawNo := s.drawNo + 1 }

/-! ### The program counter (10_state.md R24) -/

/-- The default advance, class (a). -/
def State.advance (s : State) : State := s.setPc (s.pc + 2)

/-- A conditional skip, class (b): +4 when the condition holds, +2 otherwise. -/
def State.skipIf (s : State) (c : Bool) : State := s.setPc (s.pc + if c then 4 else 2)

/-- `zext_16(nnn)`. -/
def zext16 (nnn : Addr) : Word := nnn.setWidth 16

/-! ### The framebuffer (R30) -/

/-- FB[row][col]. -/
def Framebuffer.pixel (f : Framebuffer) (row : Fin 32) (col : Fin 64) : Bool := f[row][col]

/-- FB[row][col] <- b. -/
def Framebuffer.setPixel (f : Framebuffer) (row : Fin 32) (col : Fin 64) (b : Bool) : Framebuffer :=
  f.set row (f[row].set col b)

/-- All pixels 0 (43_display.md R190). -/
def Framebuffer.blank : Framebuffer := Vector.replicate 32 (Vector.replicate 64 false)

/-! ### Faults (60_exceptions.md) -/

/-- `raise Fault(f)` (R252): HALT <- 1, CAUSE <- f, and nothing else. There is no handler and no return; only reset clears HALT (R255). -/
def State.raise (s : State) (f : Fault) : State := { s with halt := true, cause := some f }

/-- A check made before the first write (R253): if it holds the instruction's effect t happens, else the fault is taken from s. -/
def State.guard (s : State) (ok : Bool) (f : Fault) (t : State) : Result :=
  if ok then .next t else .next (s.raise f)

/-- The codes of R250, the output fault_cause (R266). -/
def faultCode : Option Fault → BitVec 3
  | none => 0
  | some .stackUnderflow => 1
  | some .stackOverflow => 2
  | some .fetchBounds => 3
  | some .dataBounds => 4
  | some .keyIndex => 5

/-- Asserting `reset` (70_reset_and_hazards.md R280): every state element at its reset value, whatever the state before.
The model's two input counters go on, so that inputs after the reset are fresh (log entry 7). -/
def hostReset (s : State) : State := { State.reset with frameNo := s.frameNo, drawNo := s.drawNo }

/-! ### Fetch (R63) -/

/-- `MemRead(PC, 2)`, big-endian; `none` when PC + 1 is above 0xFFF. -/
def State.fetch (s : State) : Option Word :=
  if inMemory (s.pc.toNat + 1) then some (s.mem.read s.pc.toNat ++ s.mem.read (s.pc.toNat + 1)) else none

/-- The state in which the next frame step fetches op: op at PC, no latched key-wait, no fault.
A PC from which nothing can be fetched is first set to the load address. -/
def State.placeWord (s : State) (op : Word) : State :=
  let at_ : Word := if inMemory (s.pc.toNat + 1) then s.pc else 0x200
  { s with mem := s.mem.writeBytes at_.toNat (wordBytes op), pc := at_, wait := false, halt := false, cause := none }

end Sys2Proof.Machine
end

