-- ==== Sys2Proof/Machine/Operands.lean ====
section
/-! DEFINITION. The operand forms: the register block V0 to Vx, the effective addresses I + k with their bounds check,
the decimal digits, the key a register names, and the target cells of a sprite. The operands vx and vy are `State.reg` on the state
at fetch (spec/30_encoding.md R93): every meaning reads them from the state it is given. -/

namespace Sys2Proof.Machine

/-- The effective address I + k, on naturals (spec/42_index_memory.md R176, 20_memory.md R62). -/
def State.ea (s : State) (k : Nat) : Nat := s.i.toNat + k

/-- The block of `count` bytes at I lies in memory; a block of no bytes needs no check (R62, R191 (a)). -/
def State.blockOk (s : State) (count : Nat) : Bool := count == 0 || inMemory (s.ea (count - 1))

/-- V[0..x] in order: `x + 1` registers (R174). -/
def State.regBlock (s : State) (x : Nibble) : List Byte := s.v.toList.take (x.toNat + 1)

/-- The register file after V[k] <- MEM[I + k] for k = 0 .. x (R175). -/
def State.loadedBlock (s : State) (x : Nibble) : Vector Byte 16 :=
  Vector.ofFn fun k : Fin 16 => if k.val ≤ x.toNat then s.mem.read (s.ea k.val) else s.v[k]

/-- Hundreds, tens and ones of a byte (R173). -/
def bcdDigits (b : Byte) : List Byte :=
  [BitVec.ofNat 8 (b.toNat / 100), BitVec.ofNat 8 (b.toNat / 10 % 10), BitVec.ofNat 8 (b.toNat % 10)]

/-- The address of glyph b of the font, the whole byte multiplied (R172). -/
def glyphAddress (b : Byte) : Word := BitVec.ofNat 16 (b.toNat * 5)

/-- The key number b names one of the 16 keys (44_timers_keys.md R213). -/
def keyIndexOk (b : Byte) : Bool := b.toNat ≤ 15

/-- KEYS[b], for a key number within 0 to 15 (R213); the other branch is never used (log entry 12). -/
def State.keyDown (s : State) (b : Byte) : Bool :=
  if h : b.toNat < 16 then s.keys[b.toNat] else false

/-- Column of sprite bit k drawn at vx: `(vx + k) mod 64` (43_display.md R191). -/
def spriteCol (vx : Byte) (k : Nat) : Fin 64 := Fin.ofNat 64 (vx.toNat + k)

/-- Row of sprite row r drawn at vy: `(vy + r) mod 32` (R191). -/
def spriteRow (vy : Byte) (r : Nat) : Fin 32 := Fin.ofNat 32 (vy.toNat + r)

/-- Sprite pixel k of a row byte: bit 7 is the first (R191, R64). -/
def spriteBit (b : Byte) (k : Nat) : Bool := b.getLsbD (7 - k)

end Sys2Proof.Machine
end

