-- ==== Sys2Proof/Machine/Flags.lean ====
section
/-! DEFINITION. The flag computations (spec/41_alu.md R152): each gives the result and the flag of one operation, computed on naturals
and narrowed at the end. The flag is always 0x00 or 0x01 (R152 (e)), and is written after the result (R152 (d)). -/

namespace Sys2Proof.Machine

/-- Register number of VF (10_state.md R21). -/
abbrev vf : Nibble := 15

/-- A flag as the byte VF holds (R152 (e)). -/
def flagByte (b : Bool) : Byte := if b then 1 else 0

/-- `vx + vy` and the carry (R146). -/
def addWithCarry (a b : Byte) : Byte × Byte :=
  (BitVec.ofNat 8 (a.toNat + b.toNat), flagByte (a.toNat + b.toNat ≥ 256))

/-- `a - b` modulo 256 and NOT borrow (R147, R149): 1 when a is at least b. -/
def subNotBorrow (a b : Byte) : Byte × Byte :=
  (BitVec.ofNat 8 (a.toNat + 256 - b.toNat), flagByte (a.toNat ≥ b.toNat))

/-- `a[7:1]` and the bit shifted out, `a[0]` (R148). -/
def shiftRightOut (a : Byte) : Byte × Byte :=
  (BitVec.ofNat 8 (a.toNat / 2), flagByte (a.getLsbD 0))

/-- `a * 2` modulo 256 and the bit shifted out, `a[7]` (R150). -/
def shiftLeftOut (a : Byte) : Byte × Byte :=
  (BitVec.ofNat 8 (a.toNat * 2), flagByte (a.getLsbD 7))

/-- `I + vx` modulo 65536 and the 16-bit overflow (42_index_memory.md R171). -/
def addToIndex (i : Word) (a : Byte) : Word × Byte :=
  (BitVec.ofNat 16 (i.toNat + a.toNat), flagByte (i.toNat + a.toNat ≥ 65536))

/-- V[x] <- result, then VF <- flag: with x = 15 the flag is what stays (R152 (d), R21, log entry 10). -/
def State.writeFlagged (s : State) (x : Nibble) (r : Byte × Byte) : State := (s.setReg x r.1).setReg vf r.2

end Sys2Proof.Machine
end

