-- ==== Sys2Proof/Machine/Alu.lean ====
section
/-! DEFINITION. The ALU instructions (spec/41_alu.md). All take the default advance and none can fault. -/

namespace Sys2Proof.Machine

/-- LD Vx, nn (R140). -/
def execLdImm (x : Nibble) (nn : Byte) (s : State) : Result := .next (s.setReg x nn).advance

/-- ADD Vx, nn (R141): no flag. -/
def execAddImm (x : Nibble) (nn : Byte) (s : State) : Result := .next (s.setReg x (s.reg x + nn)).advance

/-- LD Vx, Vy (R142). -/
def execLdReg (x y : Nibble) (s : State) : Result := .next (s.setReg x (s.reg y)).advance

/-- OR Vx, Vy (R143). -/
def execOrReg (x y : Nibble) (s : State) : Result := .next (s.setReg x (s.reg x ||| s.reg y)).advance

/-- AND Vx, Vy (R144). -/
def execAndReg (x y : Nibble) (s : State) : Result := .next (s.setReg x (s.reg x &&& s.reg y)).advance

/-- XOR Vx, Vy (R145). -/
def execXorReg (x y : Nibble) (s : State) : Result := .next (s.setReg x (s.reg x ^^^ s.reg y)).advance

/-- ADD Vx, Vy (R146). -/
def execAddReg (x y : Nibble) (s : State) : Result :=
  .next (s.writeFlagged x (addWithCarry (s.reg x) (s.reg y))).advance

/-- SUB Vx, Vy (R147). -/
def execSubReg (x y : Nibble) (s : State) : Result :=
  .next (s.writeFlagged x (subNotBorrow (s.reg x) (s.reg y))).advance

/-- SHR Vx (R148): Vy takes no part. -/
def execShr (x _y : Nibble) (s : State) : Result := .next (s.writeFlagged x (shiftRightOut (s.reg x))).advance

/-- SUBN Vx, Vy (R149). -/
def execSubnReg (x y : Nibble) (s : State) : Result :=
  .next (s.writeFlagged x (subNotBorrow (s.reg y) (s.reg x))).advance

/-- SHL Vx (R150): Vy takes no part. -/
def execShl (x _y : Nibble) (s : State) : Result := .next (s.writeFlagged x (shiftLeftOut (s.reg x))).advance

/-- RND Vx, nn (R151): the draw AND nn, one draw consumed. -/
def execRnd (x : Nibble) (nn : Byte) (s : State) : Result := .next ((s.setReg x (s.drawn &&& nn)).useDraw).advance

end Sys2Proof.Machine
end

