-- ==== Sys2Proof/Machine/Control.lean ====
section
/-! DEFINITION. The control-flow instructions and the unrecognised opcode (spec/40_control_flow.md). -/

namespace Sys2Proof.Machine

/-- SYS nnn (R120): only the default advance (log entry 10). -/
def execSys (_nnn : Addr) (s : State) : Result := .next s.advance

/-- RET (R121): pop the top of the stack into PC; StackUnderflow when it is empty. -/
def execRet (s : State) : Result :=
  match s.stk.getLast? with
  | none => .next (s.raise .stackUnderflow)
  | some t => .next ((s.setStk s.stk.dropLast).setPc t)

/-- JP nnn (R122). -/
def execJp (nnn : Addr) (s : State) : Result := .next (s.setPc (zext16 nnn))

/-- CALL nnn (R123): push PC + 2, then jump; StackOverflow when 16 entries are there (log entry 6). -/
def execCall (nnn : Addr) (s : State) : Result :=
  s.guard (s.stk.length < 16) .stackOverflow ((s.setStk (s.stk ++ [s.pc + 2])).setPc (zext16 nnn))

/-- SE Vx, nn (R124). -/
def execSeImm (x : Nibble) (nn : Byte) (s : State) : Result := .next (s.skipIf (s.reg x == nn))

/-- SNE Vx, nn (R125). -/
def execSneImm (x : Nibble) (nn : Byte) (s : State) : Result := .next (s.skipIf (s.reg x != nn))

/-- SE Vx, Vy (R126). -/
def execSeReg (x y : Nibble) (s : State) : Result := .next (s.skipIf (s.reg x == s.reg y))

/-- SNE Vx, Vy (R127). -/
def execSneReg (x y : Nibble) (s : State) : Result := .next (s.skipIf (s.reg x != s.reg y))

/-- JP V0, nnn (R128): the sum is not reduced modulo 4096. -/
def execJpV0 (nnn : Addr) (s : State) : Result := .next (s.setPc (zext16 nnn + (s.reg 0).setWidth 16))

/-- An unrecognised opcode (R131): no write at all, PC included. It is no fault, and the next cycle fetches it again (log entry 10). -/
def execUnrecognised (s : State) : Result := .next s

end Sys2Proof.Machine
end

