-- ==== Sys2Proof/Machine/Display.lean ====
section
/-! DEFINITION. The display instructions and the raster engine (spec/43_display.md). A drawing in progress is the framebuffer
and the collision found so far. -/

namespace Sys2Proof.Machine

/-- CLS (R190). -/
def execCls (s : State) : Result := .next ((s.setFb Framebuffer.blank).setChanged true).advance

/-- Steps 4 and 5 of R191 for one sprite pixel p: the collision is taken before the XOR. -/
def drawPixel (row : Fin 32) (col : Fin 64) (p : Bool) (d : Framebuffer × Bool) : Framebuffer × Bool :=
  (d.1.setPixel row col (d.1.pixel row col ^^ p), d.2 || (p && d.1.pixel row col))

/-- One sprite row, its byte b drawn from column vx on, bit 7 first (R191 step 3). -/
def drawRow (b : Byte) (vx : Byte) (row : Fin 32) (d : Framebuffer × Bool) : Framebuffer × Bool :=
  (List.range 8).foldl (fun d k => drawPixel row (spriteCol vx k) (spriteBit b k) d) d

/-- The n rows of a sprite at address base (R191 step 2). -/
def drawSprite (m : Memory) (base : Nat) (vx vy : Byte) (n : Nat) (d : Framebuffer × Bool) : Framebuffer × Bool :=
  (List.range n).foldl (fun d r => drawRow (m.read (base + r)) vx (spriteRow vy r) d) d

/-- DRW Vx, Vy, n (R191): the coordinates are the captured registers, VF starts at 0 and CHANGED is always set. -/
def execDrw (x y n : Nibble) (s : State) : Result :=
  let d := drawSprite s.mem (s.ea 0) (s.reg x) (s.reg y) n.toNat (s.fb, false)
  s.guard (s.blockOk n.toNat) .dataBounds (((s.setFb d.1).setReg vf (flagByte d.2)).setChanged true).advance

end Sys2Proof.Machine
end

