-- ==== Sys2Proof/Machine/Index.lean ====
section
/-! DEFINITION. The index-register and memory instructions (spec/42_index_memory.md). I is unchanged by every memory access (R176). -/

namespace Sys2Proof.Machine

/-- LD I, nnn (R170). -/
def execLdI (nnn : Addr) (s : State) : Result := .next (s.setI (zext16 nnn)).advance

/-- ADD I, Vx (R171): VF is the overflow of the 16-bit add. -/
def execAddIVx (x : Nibble) (s : State) : Result :=
  let r := addToIndex s.i (s.reg x)
  .next ((s.setI r.1).setReg vf r.2).advance

/-- LD F, Vx (R172). -/
def execLdFVx (x : Nibble) (s : State) : Result := .next (s.setI (glyphAddress (s.reg x))).advance

/-- LD B, Vx (R173): hundreds, tens, ones at I, I + 1, I + 2. -/
def execLdBVx (x : Nibble) (s : State) : Result :=
  s.guard (s.blockOk 3) .dataBounds (s.setMem (s.mem.writeBytes (s.ea 0) (bcdDigits (s.reg x)))).advance

/-- LD [I], Vx (R174): V0 to Vx at I, I + 1, ... -/
def execStoreRegs (x : Nibble) (s : State) : Result :=
  s.guard (s.blockOk (x.toNat + 1)) .dataBounds (s.setMem (s.mem.writeBytes (s.ea 0) (s.regBlock x))).advance

/-- LD Vx, [I] (R175): V0 to Vx from I, I + 1, ... -/
def execLoadRegs (x : Nibble) (s : State) : Result :=
  s.guard (s.blockOk (x.toNat + 1)) .dataBounds (s.setRegs (s.loadedBlock x)).advance

end Sys2Proof.Machine
end

