-- ==== Sys2Proof/Machine/TimersKeys.lean ====
section
/-! DEFINITION. The timer and keypad instructions (spec/44_timers_keys.md). -/

namespace Sys2Proof.Machine

/-- LD Vx, DT (R210). -/
def execLdVxDt (x : Nibble) (s : State) : Result := .next (s.setReg x s.dt).advance

/-- LD DT, Vx (R211). -/
def execLdDtVx (x : Nibble) (s : State) : Result := .next (s.setDt (s.reg x)).advance

/-- LD ST, Vx (R212). -/
def execLdStVx (x : Nibble) (s : State) : Result := .next (s.setSt (s.reg x)).advance

/-- SKP Vx (R213): the key is named by the value of Vx. -/
def execSkp (x : Nibble) (s : State) : Result :=
  s.guard (keyIndexOk (s.reg x)) .keyIndex (s.skipIf (s.keyDown (s.reg x)))

/-- SKNP Vx (R214). -/
def execSknp (x : Nibble) (s : State) : Result :=
  s.guard (keyIndexOk (s.reg x)) .keyIndex (s.skipIf (!s.keyDown (s.reg x)))

/-- LD Vx, K (R215): set the latch and the register it names; the key is delivered by the frame sequencer. -/
def execLdVxK (x : Nibble) (s : State) : Result := .next ((s.setWait true).setWaitReg x).advance

end Sys2Proof.Machine
end

