-- ==== Sys2Proof/Machine/Sequencer.lean ====
section
/-! DEFINITION. The frame sequencer (spec/45_frame_sequencer.md): the frame step, the timer countdown, the key-wait latch and the
instruction cycle; and a run as a sequence of frame steps (R242). -/

namespace Sys2Proof.Machine

/-- One timer counted down: "decrements by exactly 1 ... while nonzero, floor at 0" (10_state.md R26, R235). -/
def countDown (b : Byte) : Byte := if b = 0 then 0 else b - 1

/-- Step 4, first half (R235). -/
def State.tickTimers (s : State) : State := (s.setSt (countDown s.st)).setDt (countDown s.dt)

/-- The least k with KEYS[k] = 1, if any (R234). -/
def leastPressed (keys : Keys) : Option (Fin 16) := (List.finRange 16).find? (fun k => keys[k])

/-- Step 3 with WAIT = 1 (R234): deliver the lowest pressed key to V[WAITREG] and clear the latch, or go on waiting. -/
def State.serveKeyWait (s : State) : State :=
  match leastPressed s.keys with
  | some k => (s.setWait false).setReg s.waitReg (BitVec.ofNat 8 k.val)
  | none => s

/-- `Cycle()` (R237): fetch, decode, dispatch, apply. -/
def cycle (s : State) : Result :=
  match s.fetch with
  | none => .next (s.raise .fetchBounds)
  | some op =>
    match decodeWord op with
    | .ok i => exec i s
    | .error _ => execUnrecognised s

/-- Steps 1 and 2 (R232, R233). -/
def State.beginFrame (s : State) (keysIn : Keys) : State := (s.setChanged false).sampleKeys keysIn

/-- The state a cycle starts from: steps 1, 2 and the countdown done (R230). -/
def State.beforeCycle (s : State) (keysIn : Keys) : State := (s.beginFrame keysIn).tickTimers

/-- `FrameStep(keys_in)` (R230): step 0 for a halted core (R231, log entry 5), steps 1 and 2, then a latched key-wait or countdown and one cycle. -/
def frameStep (keysIn : Keys) (s : State) : Result :=
  if s.halt then .next s
  else if s.wait then .next (s.beginFrame keysIn).serveKeyWait
  else cycle (s.beforeCycle keysIn)

/-- The frame step with the key states the host supplies next (R261). -/
def hostFrame (s : State) : Result := frameStep (Config.keysIn s.frameNo) s

/-- A run under given key inputs (R242): one frame step per input. -/
def runFrames : List Keys → State → Result
  | [], s => .next s
  | k :: ks, s =>
    match frameStep k s with
    | .next t => runFrames ks t
    | .fault f => .fault f
    | .refused r => .refused r

end Sys2Proof.Machine
end

