-- ==== Sys2Proof/Machine/HostPort.lean ====
section
/-! DEFINITION. The host's side of the core: loading a program and reading the outputs
(spec/60_exceptions.md R260 to R267, spec/70_reset_and_hazards.md R283). -/

namespace Sys2Proof.Machine

/-- Load (R283): the first 3584 bytes of the buffer at 0x200 on; the rest is ignored. -/
def State.load (s : State) (rom : List Byte) : State := s.setMem (s.mem.writeBytes 0x200 (rom.take 3584))

/-- Reset, then load: where the first frame step starts (R284). -/
def boot (rom : List Byte) : State := State.reset.load rom

/-- The output ports of R260, read between frame steps. -/
structure Outputs where
  fb : Framebuffer
  fbChanged : Bool
  tone : Bool
  halted : Bool
  faultCause : BitVec 3
  deriving DecidableEq, Repr

/-- The values the ports have in a state (R238, R263, R264, R266). -/
def outputs (s : State) : Outputs where
  fb := s.fb
  fbChanged := s.changed
  tone := s.st != 0
  halted := s.halt
  faultCause := faultCode s.cause

end Sys2Proof.Machine
end

