-- ==== Sys2Proof/Machine/Step.lean ====
section
/-! DEFINITION. One step of the machine is one frame step (spec/45_frame_sequencer.md R230). -/

namespace Sys2Proof.Machine

/-- "The only transition of the core after reset and program load" (R230), its keys a free value (log entry 1). -/
def step (s : State) : Host.Outcome State Fault Refusal := hostFrame s

/-- `s` with the instruction of the table's bits w where step fetches next (log entry 4). -/
def State.withFetchWord (s : State) (nbits w : Nat) : State := s.placeWord (BitVec.ofNat 16 (w % 2 ^ nbits))

end Sys2Proof.Machine
end

