-- ==== Sys2Proof/Safety.lean ====
section
/-! DEFINITION. What counts as a safe state, and the terms in which statements say what an instruction leaves alone. -/

namespace Sys2Proof.Machine

/-- The core has faulted (spec/10_state.md R33): "never final, never stepped further" (45_frame_sequencer.md R231). -/
abbrev State.faulted (s : State) : Prop := s.halt = true

/-- The facts that hold in every state a run reaches. -/
structure State.Inv (s : State) : Prop where
  /-- MEM is in its canonical form, over addresses 0x000 to 0xFFF (20_memory.md R61). -/
  memory : s.mem.wf
  /-- 0 <= SP <= 16 (10_state.md R25). -/
  depth : s.stk.length ≤ 16
  /-- An entry of STK is what a CALL pushed, at most 0x1000 (40_control_flow.md R121, R123). -/
  returns : ∀ a ∈ s.stk, a.toNat ≤ 0x1000
  /-- PC never exceeds the largest jump target (10_state.md R23). -/
  target : s.pc.toNat ≤ 0x10FE
  /-- CAUSE is a code other than 0 exactly when the core has faulted (60_exceptions.md R250). -/
  causeOfHalt : s.halt = true ↔ s.cause ≠ none
  /-- No key-wait is latched in a halted core: a fault is taken by a cycle, and none runs while one is latched (R216). -/
  oneStop : s.halt = true → s.wait = false

/-- The elements of the state (the tuple of 10_state.md and the model's two counters). -/
inductive Part where
  | v | i | pc | stk | dt | st | keys | wait | waitReg | fb | changed | mem | halt | cause | frameNo | drawNo
  deriving DecidableEq, Repr

/-- The element p is the same in s and t: every register, every pixel, every byte of memory. -/
def Same (p : Part) (s t : State) : Prop :=
  match p with
  | .v => ∀ r : Nibble, t.reg r = s.reg r
  | .i => t.i = s.i
  | .pc => t.pc = s.pc
  | .stk => t.stk = s.stk
  | .dt => t.dt = s.dt
  | .st => t.st = s.st
  | .keys => t.keys = s.keys
  | .wait => t.wait = s.wait
  | .waitReg => t.waitReg = s.waitReg
  | .fb => ∀ row col, t.fb.pixel row col = s.fb.pixel row col
  | .changed => t.changed = s.changed
  | .mem => ∀ a, t.mem.read a = s.mem.read a
  | .halt => t.halt = s.halt
  | .cause => t.cause = s.cause
  | .frameNo => t.frameNo = s.frameNo
  | .drawNo => t.drawNo = s.drawNo

/-- Every element but those of `ps` is the same in s and t. -/
def OnlyChanges (ps : List Part) (s t : State) : Prop := ∀ p, p ∉ ps → Same p s t

/-- The elements an instruction may write when it takes no fault: the column "written by" of 10_state.md R37, and R20 to R32.
drawNo is the model's own (log entry 2). -/
def mayWrite : Instr → List Part
  | .cls => [.fb, .changed, .pc]
  | .drw _ _ _ => [.v, .fb, .changed, .pc]
  | .ret | .call _ => [.stk, .pc]
  | .sys _ | .jp _ | .jpV0 _ => [.pc]
  | .seImm _ _ | .sneImm _ _ | .seReg _ _ | .sneReg _ _ | .skp _ | .sknp _ => [.pc]
  | .ldImm _ _ | .addImm _ _ | .ldReg _ _ | .orReg _ _ | .andReg _ _ | .xorReg _ _ => [.v, .pc]
  | .addReg _ _ | .subReg _ _ | .shr _ _ | .subnReg _ _ | .shl _ _ => [.v, .pc]
  | .rnd _ _ => [.v, .pc, .drawNo]
  | .ldI _ | .ldFVx _ => [.i, .pc]
  | .addIVx _ => [.v, .i, .pc]
  | .ldBVx _ | .storeRegs _ => [.mem, .pc]
  | .loadRegs _ | .ldVxDt _ => [.v, .pc]
  | .ldDtVx _ => [.dt, .pc]
  | .ldStVx _ => [.st, .pc]
  | .ldVxK _ => [.wait, .waitReg, .pc]

/-- The instructions that write VF as a flag, whatever their operands: exactly those of 10_state.md R21. -/
def writesFlag : Instr → Bool
  | .addReg _ _ | .subReg _ _ | .shr _ _ | .subnReg _ _ | .shl _ _ | .addIVx _ | .drw _ _ _ => true
  | .cls | .ret | .sys _ | .jp _ | .call _ | .seImm _ _ | .sneImm _ _ | .seReg _ _ | .sneReg _ _ => false
  | .ldImm _ _ | .addImm _ _ | .ldReg _ _ | .orReg _ _ | .andReg _ _ | .xorReg _ _ | .rnd _ _ => false
  | .ldI _ | .jpV0 _ | .skp _ | .sknp _ | .ldVxDt _ | .ldVxK _ | .ldDtVx _ | .ldStVx _ => false
  | .ldFVx _ | .ldBVx _ | .storeRegs _ | .loadRegs _ => false

/-- The V registers that are an instruction's own destination, VF as a flag aside (R20, R140 to R151, R175, R210). -/
def isDestination (r : Nibble) : Instr → Bool
  | .ldImm x _ | .addImm x _ | .rnd x _ | .ldVxDt x => r == x
  | .ldReg x _ | .orReg x _ | .andReg x _ | .xorReg x _ => r == x
  | .addReg x _ | .subReg x _ | .shr x _ | .subnReg x _ | .shl x _ => r == x
  | .loadRegs x => r ≤ x
  | .cls | .ret | .sys _ | .jp _ | .call _ | .seImm _ _ | .sneImm _ _ | .seReg _ _ | .sneReg _ _ => false
  | .ldI _ | .jpV0 _ | .drw _ _ _ | .skp _ | .sknp _ | .ldVxK _ | .ldDtVx _ | .ldStVx _ => false
  | .addIVx _ | .ldFVx _ | .ldBVx _ | .storeRegs _ => false

/-- The fault an instruction meets in a state, by the table of 60_exceptions.md R250; `none` where it completes. -/
def faultOf (s : State) : Instr → Option Fault
  | .ret => if s.stk = [] then some .stackUnderflow else none
  | .call _ => if 16 ≤ s.stk.length then some .stackOverflow else none
  | .drw _ _ n => if 0 < n.toNat ∧ 0xFFF < s.i.toNat + n.toNat - 1 then some .dataBounds else none
  | .ldBVx _ => if 0xFFF < s.i.toNat + 2 then some .dataBounds else none
  | .storeRegs x | .loadRegs x => if 0xFFF < s.i.toNat + x.toNat then some .dataBounds else none
  | .skp x | .sknp x => if 15 < (s.reg x).toNat then some .keyIndex else none
  | .cls | .sys _ | .jp _ | .seImm _ _ | .sneImm _ _ | .seReg _ _ | .sneReg _ _ => none
  | .ldImm _ _ | .addImm _ _ | .ldReg _ _ | .orReg _ _ | .andReg _ _ | .xorReg _ _ => none
  | .addReg _ _ | .subReg _ _ | .shr _ _ | .subnReg _ _ | .shl _ _ | .rnd _ _ => none
  | .ldI _ | .jpV0 _ | .ldVxDt _ | .ldVxK _ | .ldDtVx _ | .ldStVx _ | .addIVx _ | .ldFVx _ => none

/-- The core runs a cycle in its next frame step: neither halted nor waiting for a key (45_frame_sequencer.md R236). -/
abbrev State.running (s : State) : Prop := s.halt = false ∧ s.wait = false

/-- The instruction the next cycle executes, if the fetch succeeds and the word is recognised (R237). -/
def State.nextInstr (s : State) : Option Instr :=
  match s.fetch with
  | none => none
  | some op =>
    match decodeWord op with
    | .ok i => some i
    | .error _ => none

/-- The program counter after an instruction that takes no fault: the classes of 10_state.md R24. -/
def pcAfter (s : State) : Instr → Word
  | .seImm x nn => if s.reg x = nn then s.pc + 4 else s.pc + 2
  | .sneImm x nn => if s.reg x ≠ nn then s.pc + 4 else s.pc + 2
  | .seReg x y => if s.reg x = s.reg y then s.pc + 4 else s.pc + 2
  | .sneReg x y => if s.reg x ≠ s.reg y then s.pc + 4 else s.pc + 2
  | .skp x => if s.keys[(s.reg x).toNat]? = some true then s.pc + 4 else s.pc + 2
  | .sknp x => if s.keys[(s.reg x).toNat]? = some false then s.pc + 4 else s.pc + 2
  | .jp nnn | .call nnn => BitVec.ofNat 16 nnn.toNat
  | .jpV0 nnn => BitVec.ofNat 16 (nnn.toNat + (s.reg 0).toNat)
  | .ret => s.stk.getLast?.getD s.pc
  | .sys _ | .cls | .drw _ _ _ => s.pc + 2
  | .ldImm _ _ | .addImm _ _ | .ldReg _ _ | .orReg _ _ | .andReg _ _ | .xorReg _ _ => s.pc + 2
  | .addReg _ _ | .subReg _ _ | .shr _ _ | .subnReg _ _ | .shl _ _ | .rnd _ _ => s.pc + 2
  | .ldI _ | .addIVx _ | .ldFVx _ | .ldBVx _ | .storeRegs _ | .loadRegs _ => s.pc + 2
  | .ldVxDt _ | .ldDtVx _ | .ldStVx _ | .ldVxK _ => s.pc + 2

/-- The V registers an instruction reads: those its pattern names as x or y operands, V0 for Bnnn, V0 to Vx for Fx55
(30_encoding.md R93). -/
def readsReg (r : Nibble) : Instr → Bool
  | .seImm x _ | .sneImm x _ | .addImm x _ | .shr x _ | .shl x _ => r == x
  | .seReg x y | .sneReg x y | .orReg x y | .andReg x y | .xorReg x y => r == x || r == y
  | .addReg x y | .subReg x y | .subnReg x y | .drw x y _ => r == x || r == y
  | .ldReg _ y => r == y
  | .jpV0 _ => r == 0
  | .skp x | .sknp x | .ldDtVx x | .ldStVx x | .addIVx x | .ldFVx x | .ldBVx x => r == x
  | .storeRegs x => r ≤ x
  | .cls | .ret | .sys _ | .jp _ | .call _ | .ldImm _ _ | .rnd _ _ | .ldI _ => false
  | .ldVxDt _ | .ldVxK _ | .loadRegs _ => false

/-- The cell (row, col) is one that DRW Vx, Vy, n targets with a sprite pixel of 1: the set S of 43_display.md R192. -/
def InSprite (s : State) (x y n : Nibble) (row : Fin 32) (col : Fin 64) : Prop :=
  ∃ r < n.toNat, ∃ k < 8,
    row.val = ((s.reg y).toNat + r) % 32 ∧ col.val = ((s.reg x).toNat + k) % 64 ∧
    (s.mem.read (s.ea r)).getLsbD (7 - k) = true

end Sys2Proof.Machine
end

