-- ==== Sys2Proof/Certificates/Slice0/Obligations.lean ====
section
/-! DEFINITION. The statements for the provers, from the numbered rules of spec/. A next state is always called t; a statement of an
instruction says that `exec` answers one, what it holds, and (`OnlyChanges`) that nothing else changed. -/

open Sys2Proof Sys2Proof.Machine

/-! ### Encoding -/

/-- Every well-formed instruction is read back from its bytes, whatever follows them (30_encoding.md R91, R92, R94, R95). -/
def Obligations.EncodeThenDecodeIsIdentity : Prop :=
  ∀ (i : Instr) (rest : List Byte), i.wellFormed = true → decode (encodeBytes i ++ rest) = .ok (i, rest)

/-- Every recognised word is the word of the instruction it decodes to, and that instruction is well formed. -/
def Obligations.DecodeThenEncodeIsIdentity : Prop :=
  ∀ (op : Word) (i : Instr), decodeWord op = .ok i → i.wellFormed = true ∧ encode i = op

/-- R94: the nibble dispatch is the table of R95 read top to bottom, first match winning, and two rows match one word only where
the later one is SYS. -/
def Obligations.DispatchIsFirstMatchingRow : Prop :=
  opcodeRows.length = 35 ∧
  (∀ op : Word, decodeWord op = decodeByTable op) ∧
  (∀ (op : Word) (j k : Nat) (a b : OpcodeRow), opcodeRows[j]? = some a → opcodeRows[k]? = some b → j < k →
    op &&& a.mask = a.bits → op &&& b.mask = b.bits → k = 2)

/-- R96: which words are unrecognised, by nibbles; every other word is recognised. -/
def Obligations.UnrecognisedWordsAreThoseListed : Prop :=
  ∀ op : Word,
    (decodeWord op = .error (.unrecognised op) ∨ ∃ i, decodeWord op = .ok i) ∧
    (decodeWord op = .error (.unrecognised op) ↔
      (fieldD3 op = 0x5 ∧ fieldN op ≠ 0) ∨
      (fieldD3 op = 0x8 ∧ fieldN op ∈ [0x8, 0x9, 0xA, 0xB, 0xC, 0xD, 0xF]) ∨
      (fieldD3 op = 0x9 ∧ fieldN op ≠ 0) ∨
      (fieldD3 op = 0xE ∧ fieldNN op ∉ [0x9E, 0xA1]) ∨
      (fieldD3 op = 0xF ∧ fieldNN op ∉ [0x07, 0x0A, 0x15, 0x18, 0x1E, 0x29, 0x33, 0x55, 0x65]))

/-- R100, the worked decode, word for word. -/
def Obligations.WorkedDecodeOfTheSpec : Prop :=
  fieldD3 0xD125 = 0xD ∧ fieldX 0xD125 = 1 ∧ fieldY 0xD125 = 2 ∧ fieldN 0xD125 = 5 ∧
  fieldNN 0xD125 = 0x25 ∧ fieldNNN 0xD125 = 0x125 ∧
  (0xD125 : Word) &&& 0xF000 = 0xD000 ∧ decodeWord 0xD125 = .ok (.drw 1 2 5) ∧ wordBytes 0xD125 = [0xD1, 0x25] ∧
  fieldD3 0x8AB7 = 8 ∧ fieldX 0x8AB7 = 0xA ∧ fieldY 0x8AB7 = 0xB ∧ fieldN 0x8AB7 = 7 ∧
  decodeWord 0x8AB7 = .ok (.subnReg 0xA 0xB) ∧
  decodeWord 0x8AB8 = .error (.unrecognised 0x8AB8) ∧
  decodeWord 0x00E1 = .ok (.sys 0x0E1)

/-! ### Reset and load -/

/-- R281, R282: every element's value after reset and before load, from construction or from any state. -/
def Obligations.ResetLeavesTheSpecsValues : Prop :=
  ∀ s t : State, t = State.reset ∨ t = hostReset s →
    (∀ r : Nibble, t.reg r = 0) ∧ t.i = 0 ∧ t.pc = 0x200 ∧ t.stk = [] ∧ t.dt = 0 ∧ t.st = 0 ∧
    (∀ k : Fin 16, t.keys[k] = false) ∧ t.wait = false ∧ t.waitReg = 0 ∧
    (∀ row col, t.fb.pixel row col = false) ∧ t.changed = false ∧ t.halt = false ∧ faultCode t.cause = 0 ∧
    (∀ (a : Nat) (h : a < 80), t.mem.read a = Config.fontTable[a]) ∧
    (∀ a : Nat, 80 ≤ a → a ≤ 0xFFF → t.mem.read a = 0)

/-- R283: the first 3584 bytes of the buffer are copied to 0x200 on, nothing else changes, and a short program leaves zeros. -/
def Obligations.LoadCopiesAtMost3584Bytes : Prop :=
  (∀ (s : State) (rom : List Byte), s.mem.wf →
    (∀ (k : Nat) (h : k < rom.length), k < 3584 → (s.load rom).mem.read (0x200 + k) = rom[k]) ∧
    (∀ a : Nat, a < 0x200 ∨ 0x200 + min rom.length 3584 ≤ a → (s.load rom).mem.read a = s.mem.read a) ∧
    OnlyChanges [.mem] s (s.load rom)) ∧
  (∀ (rom : List Byte) (a : Nat), 0x200 + rom.length ≤ a → a ≤ 0xFFF → (boot rom).mem.read a = 0)

/-- R285: the first frame step after load behaves like any other: CHANGED cleared, KEYS loaded, the timers left at 0, and the word at
0x200 executed (or, where it is unrecognised, nothing more). A program shorter than two bytes is followed by zeros (R283).
That the KEYS loaded are `Config.keysIn 0` and the counter is then 1 is the model's choice (log entry 1), no rule of the spec. -/
def Obligations.FirstFrameRunsTheWordAt0x200 : Prop :=
  ∀ (rom : List Byte),
    let start : State := { boot rom with changed := false, keys := Config.keysIn 0, frameNo := 1, dt := 0, st := 0 }
    match decodeWord (rom[0]?.getD 0 ++ rom[1]?.getD 0) with
    | .ok i => step (boot rom) = exec i start
    | .error _ => step (boot rom) = .next start

/-! ### The frame step -/

/-- R230, R237: a step at a recognised word is the cycle's `exec` of it on the state after steps 1 and 2 and the countdown.
Which key input is read, and that the counter `frameNo` goes up by one, is the model's choice (log entry 1). -/
def Obligations.StepRunsTheDecodedInstruction : Prop :=
  ∀ (s : State) (op : Word) (i : Instr), s.running → s.fetch = some op → decodeWord op = .ok i →
    step s = exec i { s with changed := false, keys := Config.keysIn s.frameNo, frameNo := s.frameNo + 1,
                             st := if s.st = 0 then 0 else s.st - 1, dt := if s.dt = 0 then 0 else s.dt - 1 }

/-- R63: the opcode is the two bytes at PC, the first the high one; where PC + 1 is above 0xFFF the cycle only faults. -/
def Obligations.FetchIsBigEndianOrFaults : Prop :=
  (∀ s : State, s.pc.toNat + 1 ≤ 0xFFF →
    ∃ op, s.fetch = some op ∧
      op.toNat = (s.mem.read s.pc.toNat).toNat * 256 + (s.mem.read (s.pc.toNat + 1)).toNat) ∧
  (∀ s : State, 0xFFF ≤ s.pc.toNat →
    s.fetch = none ∧ cycle s = .next { s with halt := true, cause := some .fetchBounds })

/-- R231: frame steps change nothing in a halted core, however many there are, and its outputs stay. -/
def Obligations.HaltedCoreIgnoresFrames : Prop :=
  ∀ (ks : List Keys) (s : State), s.halt = true → runFrames ks s = .next s ∧ step s = .next s

/-- R232: CHANGED after a frame step tells exactly whether its cycle executed CLS or DRW. -/
def Obligations.ChangedTellsClearOrDraw : Prop :=
  ∀ (k : Keys) (s : State), s.halt = false →
    ∃ t, frameStep k s = .next t ∧
      (t.changed = true ↔
        s.wait = false ∧ t.halt = false ∧ (s.nextInstr = some .cls ∨ ∃ x y n, s.nextInstr = some (.drw x y n)))

/-- R233: KEYS is replaced whole, and whatever reads it in the same frame step (step 3, SKP, SKNP) reads the new states. -/
def Obligations.KeysAreReplacedEachFrame : Prop :=
  ∀ (k : Keys) (s : State), s.halt = false →
    ∃ t, frameStep k s = .next t ∧ t.keys = k ∧
      (s.wait = true → (t.wait = false ↔ ∃ j : Fin 16, k[j] = true)) ∧
      (∀ (x : Nibble) (j : Fin 16), s.wait = false → (s.reg x).toNat = j.val →
        (s.nextInstr = some (.skp x) → t.pc = s.pc + if k[j] = true then 4 else 2) ∧
        (s.nextInstr = some (.sknp x) → t.pc = s.pc + if k[j] = false then 4 else 2))

/-- R234: a latched key-wait delivers the least pressed key to V[WAITREG] and clears the latch; with no key it goes on.
No cycle runs and no timer moves in either case. -/
def Obligations.KeyWaitDeliversTheLeastKey : Prop :=
  ∀ (k : Keys) (s : State), s.halt = false → s.wait = true →
    (∀ j : Fin 16, k[j] = true → (∀ j' : Fin 16, j' < j → k[j'] = false) →
      ∃ t, frameStep k s = .next t ∧ t.wait = false ∧ (t.reg s.waitReg).toNat = j.val ∧
        (∀ r, r ≠ s.waitReg → t.reg r = s.reg r) ∧ t.keys = k ∧ t.changed = false ∧
        OnlyChanges [.v, .wait, .keys, .changed, .frameNo] s t) ∧
    ((∀ j : Fin 16, k[j] = false) →
      ∃ t, frameStep k s = .next t ∧ t.keys = k ∧ t.changed = false ∧ OnlyChanges [.keys, .changed, .frameNo] s t)

/-- R235: the countdown, in the frame steps that run a cycle and in no other; Fx07 reads and Fx15, Fx18 overwrite the value after it. -/
def Obligations.TimersCountOncePerCycleFrame : Prop :=
  ∀ (k : Keys) (s : State),
    ∃ t, frameStep k s = .next t ∧
      (s.halt = true ∨ s.wait = true → t.dt = s.dt ∧ t.st = s.st) ∧
      (s.running → (∀ x, s.nextInstr ≠ some (.ldDtVx x)) → t.dt.toNat = s.dt.toNat - 1) ∧
      (s.running → (∀ x, s.nextInstr ≠ some (.ldStVx x)) → t.st.toNat = s.st.toNat - 1) ∧
      (∀ x, s.running → s.nextInstr = some (.ldDtVx x) → t.dt = s.reg x) ∧
      (∀ x, s.running → s.nextInstr = some (.ldStVx x) → t.st = s.reg x) ∧
      (∀ x, s.running → s.nextInstr = some (.ldVxDt x) → (t.reg x).toNat = s.dt.toNat - 1)

/-- R238: the report after a frame step, and that it is evaluated after the countdown and the cycle. -/
def Obligations.ReportIsTakenAtTheEnd : Prop :=
  ∀ (k : Keys) (s : State),
    ∃ t, frameStep k s = .next t ∧ (outputs t).fbChanged = t.changed ∧ ((outputs t).tone = true ↔ t.st ≠ 0) ∧
      (∀ x, s.running → s.nextInstr = some (.ldStVx x) → s.reg x ≠ 0 → (outputs t).tone = true) ∧
      (s.running → s.st = 1 → (∀ x, s.nextInstr ≠ some (.ldStVx x)) → (outputs t).tone = false)

/-- R263, R264, R266 with the codes of R250: what the output ports show of any state. -/
def Obligations.OutputsShowTheState : Prop :=
  ∀ s : State,
    (∀ row col, (outputs s).fb.pixel row col = s.fb.pixel row col) ∧ (outputs s).fbChanged = s.changed ∧
    ((outputs s).tone = true ↔ s.st.toNat ≠ 0) ∧ (outputs s).halted = s.halt ∧
    ((outputs s).faultCause.toNat =
      match s.cause with
      | none => 0
      | some .stackUnderflow => 1
      | some .stackOverflow => 2
      | some .fetchBounds => 3
      | some .dataBounds => 4
      | some .keyIndex => 5)

/-- R243: what a frame step never does: one whole instruction at most, no timer down by more than 1, and outside a cycle no change of
MEM, I, PC, STK, FB or V but the key's register. Where a cycle runs, "outside" it is the way from s to `s.beforeCycle k`, on which only
CHANGED, KEYS and the timers (and the model's input counter, log entry 1) move. -/
def Obligations.FrameStepNeverActsOutsideACycle : Prop :=
  ∀ (k : Keys) (s : State),
    ∃ t, frameStep k s = .next t ∧
      (s.halt = true ∨ s.wait = true →
        OnlyChanges [.v, .wait, .keys, .changed, .frameNo] s t ∧ ∀ r, r ≠ s.waitReg → t.reg r = s.reg r) ∧
      (s.running →
        (∃ i, s.nextInstr = some i ∧ exec i (s.beforeCycle k) = .next t) ∨
        (s.nextInstr = none ∧ OnlyChanges [.keys, .changed, .dt, .st, .frameNo, .halt, .cause] s t)) ∧
      OnlyChanges [.changed, .keys, .dt, .st, .frameNo] s (s.beforeCycle k) ∧
      s.dt.toNat - 1 ≤ (s.beforeCycle k).dt.toNat ∧ s.st.toNat - 1 ≤ (s.beforeCycle k).st.toNat

/-- Every step, from any state, ends in a next state: the model stops nowhere (R68, R241). -/
def Obligations.EveryStepAnswersANextState : Prop :=
  (∀ s : State, ∃ t, step s = .next t) ∧ (∀ (k : Keys) (s : State), ∃ t, frameStep k s = .next t)

/-- R131: at an unrecognised opcode the core spins for ever, under any keys: only CHANGED, KEYS and the timers move, and no fault is recorded. -/
def Obligations.UnrecognisedOpcodeSpins : Prop :=
  ∀ (ks : List Keys) (s : State) (op : Word), s.running → s.fetch = some op → decodeWord op = .error (.unrecognised op) →
    ∃ t, runFrames ks s = .next t ∧ OnlyChanges [.changed, .keys, .dt, .st, .frameNo] s t ∧
      t.dt.toNat = s.dt.toNat - ks.length ∧ t.st.toNat = s.st.toNat - ks.length ∧
      (ks ≠ [] → t.changed = false ∧ some t.keys = ks.getLast?)

/-- R242 (c): a JP to its own address is a program's idiom for "done": nothing a program can write moves any more but the timers. -/
def Obligations.JumpToItselfSpins : Prop :=
  ∀ (ks : List Keys) (s : State) (nnn : Addr), s.running → s.nextInstr = some (.jp nnn) → s.pc.toNat = nnn.toNat →
    ∃ t, runFrames ks s = .next t ∧ OnlyChanges [.changed, .keys, .dt, .st, .frameNo] s t ∧
      t.dt.toNat = s.dt.toNat - ks.length ∧ t.st.toNat = s.st.toNat - ks.length

/-- R240, R270: while no key is pressed a key-wait lasts, with everything but CHANGED and KEYS frozen, and the first frame with a key
delivers its number; normal cycles then resume at the unchanged PC. -/
def Obligations.KeyWaitLastsUntilAKey : Prop :=
  ∀ (ks : List Keys) (k : Keys) (j : Fin 16) (s : State), s.halt = false → s.wait = true →
    (∀ q ∈ ks, ∀ j' : Fin 16, q[j'] = false) → k[j] = true → (∀ j' : Fin 16, j' < j → k[j'] = false) →
    (∃ u, runFrames ks s = .next u ∧ OnlyChanges [.keys, .changed, .frameNo] s u) ∧
    (∃ t, runFrames (ks ++ [k]) s = .next t ∧ t.running ∧ (t.reg s.waitReg).toNat = j.val ∧
      (∀ r, r ≠ s.waitReg → t.reg r = s.reg r) ∧ OnlyChanges [.v, .wait, .keys, .changed, .frameNo] s t)

/-- R216: WAIT is set only by an executing Fx0A, and WAITREG is never overwritten while WAIT is set. -/
def Obligations.AtMostOneKeyWait : Prop :=
  ∀ (k : Keys) (s : State),
    ∃ t, frameStep k s = .next t ∧
      (s.wait = true → t.waitReg = s.waitReg ∧ t.pc = s.pc) ∧
      (s.wait = false → t.wait = true → ∃ x, s.nextInstr = some (.ldVxK x) ∧ t.waitReg = x)

/-! ### Invariant -/

/-- Every step keeps the invariant: canonical memory, stack bounds, PC bound, CAUSE against HALT, no wait in a halted core. -/
def Obligations.EveryStepKeepsTheInvariant : Prop :=
  ∀ s t : State, s.Inv → step s = .next t → t.Inv

/-- The invariant holds after reset. -/
def Obligations.ResetMeetsTheInvariant : Prop := State.reset.Inv

/-- The invariant holds along every run, from any loaded program and under any keys. -/
def Obligations.EveryRunMeetsTheInvariant : Prop :=
  ∀ (rom : List Byte) (ks : List Keys), ∃ t, runFrames ks (boot rom) = .next t ∧ t.Inv

/-! ### Faults -/

/-- R250: each fault is taken exactly under its condition, with its code, and an instruction under none of them completes.
That CALL overflows with more than 16 entries too, where R250 says SP = 16, is the model's choice for states no run reaches (log entry 6). -/
def Obligations.FaultsAreThoseOfTheTable : Prop :=
  (∀ (i : Instr) (s : State) (f : Fault), faultOf s i = some f →
    exec i s = .next { s with halt := true, cause := some f }) ∧
  (∀ (i : Instr) (s : State), faultOf s i = none → ∃ t, exec i s = .next t ∧ t.halt = s.halt ∧ t.cause = s.cause) ∧
  (∀ s : State, 0xFFF ≤ s.pc.toNat → cycle s = .next { s with halt := true, cause := some .fetchBounds }) ∧
  (∀ s : State, s.pc.toNat < 0xFFF → s.nextInstr = none → cycle s = .next s) ∧
  faultCode none = 0 ∧ faultCode (some .stackUnderflow) = 1 ∧ faultCode (some .stackOverflow) = 2 ∧
  faultCode (some .fetchBounds) = 3 ∧ faultCode (some .dataBounds) = 4 ∧ faultCode (some .keyIndex) = 5

/-- R253: a frame step that ends halted wrote nothing in its cycle: it is the state before the cycle with HALT and CAUSE set.
That the counter `frameNo` goes up by one is the model's choice (log entry 1), no rule of the spec. -/
def Obligations.FaultsArePrecise : Prop :=
  ∀ (k : Keys) (s t : State), s.halt = false → frameStep k s = .next t → t.halt = true →
    s.wait = false ∧ ∃ f : Fault,
      t = { s with changed := false, keys := k, frameNo := s.frameNo + 1,
                   st := if s.st = 0 then 0 else s.st - 1, dt := if s.dt = 0 then 0 else s.dt - 1,
                   halt := true, cause := some f }

/-! ### What instructions write, read and leave alone -/

/-- R37 and R20 to R32: an instruction that meets no fault completes and writes only the elements the spec lets it write. -/
def Obligations.InstructionsWriteOnlyTheirElements : Prop :=
  ∀ (i : Instr) (s : State), faultOf s i = none → ∃ t, exec i s = .next t ∧ OnlyChanges (mayWrite i) s t

/-- R24: the program counter after every recognised instruction, by its class, and after an unrecognised opcode. -/
def Obligations.PcFollowsItsClass : Prop :=
  (∀ (i : Instr) (s : State), faultOf s i = none → ∃ t, exec i s = .next t ∧ t.pc = pcAfter s i) ∧
  (∀ (s : State) (op : Word), s.fetch = some op → decodeWord op = .error (.unrecognised op) → ∃ t, cycle s = .next t ∧ t.pc = s.pc)

/-- R20, R21: registers other than the destination keep their value, VF aside in the flag writers, which always leave it 0 or 1. -/
def Obligations.OnlyFlagWritersTouchVf : Prop :=
  ∀ (i : Instr) (s : State), faultOf s i = none →
    ∃ t, exec i s = .next t ∧
      (∀ r : Nibble, isDestination r i = false → (r ≠ 15 ∨ writesFlag i = false) → t.reg r = s.reg r) ∧
      (writesFlag i = true → t.reg 15 = 0 ∨ t.reg 15 = 1)

/-- R93, R21: an instruction depends on no V register but those it names as operands; VF in particular is never read implicitly. -/
def Obligations.UnnamedRegistersDoNotMatter : Prop :=
  ∀ (i : Instr) (s : State) (r : Nibble) (b : Byte), readsReg r i = false →
    ∃ t u, exec i s = .next t ∧ exec i (s.setReg r b) = .next u ∧
      OnlyChanges [.v] t u ∧ ∀ q, q ≠ r → u.reg q = t.reg q

/-- R28: no instruction but SKP and SKNP depends on KEYS, and none writes it. -/
def Obligations.OnlyKeySkipsReadKeys : Prop :=
  ∀ (i : Instr) (s : State) (k : Keys), (∀ x, i ≠ .skp x ∧ i ≠ .sknp x) →
    ∃ t, exec i s = .next t ∧ t.keys = s.keys ∧ exec i { s with keys := k } = .next { t with keys := k }

/-! ### Control flow -/

/-- R120, R122, R128: SYS advances; JP and JP V0 replace PC by their target, the sum of JP V0 not reduced. -/
def Obligations.SysAdvancesAndJumpsReplacePc : Prop :=
  ∀ (nnn : Addr) (s : State),
    (∃ t, exec (.sys nnn) s = .next t ∧ t.pc = s.pc + 2 ∧ OnlyChanges [.pc] s t) ∧
    (∃ t, exec (.jp nnn) s = .next t ∧ t.pc.toNat = nnn.toNat ∧ OnlyChanges [.pc] s t) ∧
    (∃ t, exec (.jpV0 nnn) s = .next t ∧ t.pc.toNat = nnn.toNat + (s.reg 0).toNat ∧ OnlyChanges [.pc] s t)

/-- R123: CALL pushes PC + 2 and jumps, or faults with nothing pushed when 16 entries are there.
That more than 16 entries, where R123 says SP = 16, fault as well is the model's choice for states no run reaches (log entry 6). -/
def Obligations.CallPushesTheNextAddress : Prop :=
  ∀ (nnn : Addr) (s : State),
    (s.stk.length < 16 →
      ∃ t, exec (.call nnn) s = .next t ∧ t.stk = s.stk ++ [s.pc + 2] ∧ t.pc.toNat = nnn.toNat ∧
        OnlyChanges [.stk, .pc] s t) ∧
    (16 ≤ s.stk.length →
      ∃ t, exec (.call nnn) s = .next t ∧ t.halt = true ∧ t.cause = some .stackOverflow ∧ OnlyChanges [.halt, .cause] s t)

/-- R121: RET pops the last entry into PC, or faults with nothing written when there is none. -/
def Obligations.ReturnPopsIntoPc : Prop :=
  (∀ (s : State) (k : List Word) (a : Word), s.stk = k ++ [a] →
    ∃ t, exec .ret s = .next t ∧ t.stk = k ∧ t.pc = a ∧ OnlyChanges [.stk, .pc] s t) ∧
  (∀ s : State, s.stk = [] →
    ∃ t, exec .ret s = .next t ∧ t.halt = true ∧ t.cause = some .stackUnderflow ∧ OnlyChanges [.halt, .cause] s t)

/-- R129: a RET executed on the stack a CALL left goes to the instruction after that CALL and restores the stack. -/
def Obligations.ReturnUndoesCall : Prop :=
  ∀ (nnn : Addr) (s : State), s.stk.length < 16 →
    ∃ t, exec (.call nnn) s = .next t ∧
      ∀ u : State, u.stk = t.stk → ∃ w, exec .ret u = .next w ∧ w.pc = s.pc + 2 ∧ w.stk = s.stk

/-- R124 to R127: the four skips go on by 4 when their condition holds and by 2 otherwise. -/
def Obligations.SkipsAdvanceFourOrTwo : Prop :=
  ∀ (x y : Nibble) (nn : Byte) (s : State),
    (∃ t, exec (.seImm x nn) s = .next t ∧ OnlyChanges [.pc] s t ∧
      (s.reg x = nn → t.pc = s.pc + 4) ∧ (s.reg x ≠ nn → t.pc = s.pc + 2)) ∧
    (∃ t, exec (.sneImm x nn) s = .next t ∧ OnlyChanges [.pc] s t ∧
      (s.reg x ≠ nn → t.pc = s.pc + 4) ∧ (s.reg x = nn → t.pc = s.pc + 2)) ∧
    (∃ t, exec (.seReg x y) s = .next t ∧ OnlyChanges [.pc] s t ∧
      (s.reg x = s.reg y → t.pc = s.pc + 4) ∧ (s.reg x ≠ s.reg y → t.pc = s.pc + 2)) ∧
    (∃ t, exec (.sneReg x y) s = .next t ∧ OnlyChanges [.pc] s t ∧
      (s.reg x ≠ s.reg y → t.pc = s.pc + 4) ∧ (s.reg x = s.reg y → t.pc = s.pc + 2))

/-! ### ALU -/

/-- R140, R141, R142: load immediate, add immediate without a flag, copy. VF changes only as the destination. -/
def Obligations.LoadsCopiesAndAddImmediate : Prop :=
  ∀ (x y : Nibble) (nn : Byte) (s : State),
    (∃ t, exec (.ldImm x nn) s = .next t ∧ t.reg x = nn ∧ (∀ r, r ≠ x → t.reg r = s.reg r) ∧
      t.pc = s.pc + 2 ∧ OnlyChanges [.v, .pc] s t) ∧
    (∃ t, exec (.addImm x nn) s = .next t ∧ (t.reg x).toNat = ((s.reg x).toNat + nn.toNat) % 256 ∧
      (∀ r, r ≠ x → t.reg r = s.reg r) ∧ t.pc = s.pc + 2 ∧ OnlyChanges [.v, .pc] s t) ∧
    (∃ t, exec (.ldReg x y) s = .next t ∧ t.reg x = s.reg y ∧ (∀ r, r ≠ x → t.reg r = s.reg r) ∧
      t.pc = s.pc + 2 ∧ OnlyChanges [.v, .pc] s t)

/-- R143, R144, R145: OR, AND and XOR bit by bit; VF is neither set nor cleared as a flag. -/
def Obligations.LogicIsBitByBit : Prop :=
  ∀ (x y : Nibble) (s : State),
    (∃ t, exec (.orReg x y) s = .next t ∧
      (∀ k < 8, (t.reg x).getLsbD k = ((s.reg x).getLsbD k || (s.reg y).getLsbD k)) ∧
      (∀ r, r ≠ x → t.reg r = s.reg r) ∧ t.pc = s.pc + 2 ∧ OnlyChanges [.v, .pc] s t) ∧
    (∃ t, exec (.andReg x y) s = .next t ∧
      (∀ k < 8, (t.reg x).getLsbD k = ((s.reg x).getLsbD k && (s.reg y).getLsbD k)) ∧
      (∀ r, r ≠ x → t.reg r = s.reg r) ∧ t.pc = s.pc + 2 ∧ OnlyChanges [.v, .pc] s t) ∧
    (∃ t, exec (.xorReg x y) s = .next t ∧
      (∀ k < 8, (t.reg x).getLsbD k = ((s.reg x).getLsbD k ^^ (s.reg y).getLsbD k)) ∧
      (∀ r, r ≠ x → t.reg r = s.reg r) ∧ t.pc = s.pc + 2 ∧ OnlyChanges [.v, .pc] s t)

/-- R146: the sum modulo 256 and the carry in VF; with x = 15 the carry is what stays. -/
def Obligations.AddWritesSumAndCarry : Prop :=
  ∀ (x y : Nibble) (s : State),
    ∃ t, exec (.addReg x y) s = .next t ∧
      (x ≠ 15 → (t.reg x).toNat = ((s.reg x).toNat + (s.reg y).toNat) % 256) ∧
      (256 ≤ (s.reg x).toNat + (s.reg y).toNat → t.reg 15 = 1) ∧
      ((s.reg x).toNat + (s.reg y).toNat < 256 → t.reg 15 = 0) ∧
      (∀ r, r ≠ x → r ≠ 15 → t.reg r = s.reg r) ∧ t.pc = s.pc + 2 ∧ OnlyChanges [.v, .pc] s t

/-- R147, R149: both subtractions modulo 256 with VF = NOT borrow; equal operands give 0 and VF = 1. -/
def Obligations.SubtractWritesNotBorrow : Prop :=
  ∀ (x y : Nibble) (s : State),
    (∃ t, exec (.subReg x y) s = .next t ∧
      (x ≠ 15 → (t.reg x).toNat = if (s.reg y).toNat ≤ (s.reg x).toNat then (s.reg x).toNat - (s.reg y).toNat
        else (s.reg x).toNat + 256 - (s.reg y).toNat) ∧
      ((s.reg y).toNat ≤ (s.reg x).toNat → t.reg 15 = 1) ∧ ((s.reg x).toNat < (s.reg y).toNat → t.reg 15 = 0) ∧
      (∀ r, r ≠ x → r ≠ 15 → t.reg r = s.reg r) ∧ t.pc = s.pc + 2 ∧ OnlyChanges [.v, .pc] s t) ∧
    (∃ t, exec (.subnReg x y) s = .next t ∧
      (x ≠ 15 → (t.reg x).toNat = if (s.reg x).toNat ≤ (s.reg y).toNat then (s.reg y).toNat - (s.reg x).toNat
        else (s.reg y).toNat + 256 - (s.reg x).toNat) ∧
      ((s.reg x).toNat ≤ (s.reg y).toNat → t.reg 15 = 1) ∧ ((s.reg y).toNat < (s.reg x).toNat → t.reg 15 = 0) ∧
      (∀ r, r ≠ x → r ≠ 15 → t.reg r = s.reg r) ∧ t.pc = s.pc + 2 ∧ OnlyChanges [.v, .pc] s t)

/-- R148, R150: the shifts by one of Vx in place, VF the bit shifted out; Vy takes no part. -/
def Obligations.ShiftsWriteTheBitShiftedOut : Prop :=
  ∀ (x y : Nibble) (s : State),
    (∃ t, exec (.shr x y) s = .next t ∧
      (x ≠ 15 → (t.reg x).getLsbD 7 = false ∧ ∀ k < 7, (t.reg x).getLsbD k = (s.reg x).getLsbD (k + 1)) ∧
      t.reg 15 = (if (s.reg x).getLsbD 0 then 1 else 0) ∧
      (∀ r, r ≠ x → r ≠ 15 → t.reg r = s.reg r) ∧ t.pc = s.pc + 2 ∧ OnlyChanges [.v, .pc] s t) ∧
    (∃ t, exec (.shl x y) s = .next t ∧
      (x ≠ 15 → (t.reg x).getLsbD 0 = false ∧ ∀ k < 7, (t.reg x).getLsbD (k + 1) = (s.reg x).getLsbD k) ∧
      t.reg 15 = (if (s.reg x).getLsbD 7 then 1 else 0) ∧
      (∀ r, r ≠ x → r ≠ 15 → t.reg r = s.reg r) ∧ t.pc = s.pc + 2 ∧ OnlyChanges [.v, .pc] s t)

/-- R151, R153: RND stores the fresh draw AND nn, and consumes that draw. That the draw is the free value `Config.randIn s.drawNo`, of
which nothing is assumed, and that `drawNo` goes up by one, is the model's choice (log entry 2). -/
def Obligations.RandomIsAFreshDrawMasked : Prop :=
  ∀ (x : Nibble) (nn : Byte) (s : State),
    ∃ t, exec (.rnd x nn) s = .next t ∧
      (∀ k < 8, (t.reg x).getLsbD k = ((Config.randIn s.drawNo).getLsbD k && nn.getLsbD k)) ∧
      (nn = 0xFF → t.reg x = Config.randIn s.drawNo) ∧ (nn = 0 → t.reg x = 0) ∧ t.drawNo = s.drawNo + 1 ∧
      (∀ r, r ≠ x → t.reg r = s.reg r) ∧ t.pc = s.pc + 2 ∧ OnlyChanges [.v, .pc, .drawNo] s t

/-! ### Index register and memory -/

/-- R170, R171, R172: the three ways to write I; only Fx1E writes VF, with the overflow of the 16-bit add. -/
def Obligations.IndexIsLoadedAddedAndPointed : Prop :=
  ∀ (x : Nibble) (nnn : Addr) (s : State),
    (∃ t, exec (.ldI nnn) s = .next t ∧ t.i.toNat = nnn.toNat ∧ t.pc = s.pc + 2 ∧ OnlyChanges [.i, .pc] s t) ∧
    (∃ t, exec (.addIVx x) s = .next t ∧ t.i.toNat = (s.i.toNat + (s.reg x).toNat) % 65536 ∧
      (65536 ≤ s.i.toNat + (s.reg x).toNat → t.reg 15 = 1) ∧ (s.i.toNat + (s.reg x).toNat < 65536 → t.reg 15 = 0) ∧
      (∀ r, r ≠ 15 → t.reg r = s.reg r) ∧ t.pc = s.pc + 2 ∧ OnlyChanges [.v, .i, .pc] s t) ∧
    (∃ t, exec (.ldFVx x) s = .next t ∧ t.i.toNat = (s.reg x).toNat * 5 ∧ t.pc = s.pc + 2 ∧ OnlyChanges [.i, .pc] s t)

/-- R173: the three decimal digits at I, I + 1, I + 2 and no other byte; DataBounds with nothing written when I + 2 is above 0xFFF. -/
def Obligations.BcdStoresThreeDigits : Prop :=
  ∀ (x : Nibble) (s : State), s.mem.wf →
    (s.ea 2 ≤ 0xFFF →
      ∃ t, exec (.ldBVx x) s = .next t ∧
        (t.mem.read (s.ea 0)).toNat = (s.reg x).toNat / 100 ∧
        (t.mem.read (s.ea 1)).toNat = (s.reg x).toNat / 10 % 10 ∧
        (t.mem.read (s.ea 2)).toNat = (s.reg x).toNat % 10 ∧
        (∀ a, a < s.ea 0 ∨ s.ea 2 < a → t.mem.read a = s.mem.read a) ∧
        t.pc = s.pc + 2 ∧ OnlyChanges [.mem, .pc] s t) ∧
    (0xFFF < s.ea 2 →
      ∃ t, exec (.ldBVx x) s = .next t ∧ t.halt = true ∧ t.cause = some .dataBounds ∧ OnlyChanges [.halt, .cause] s t)

/-- R174: V0 to Vx at I to I + x and no other byte, I unchanged; DataBounds with nothing written when I + x is above 0xFFF. -/
def Obligations.StoreCopiesV0ToVx : Prop :=
  ∀ (x : Nibble) (s : State), s.mem.wf →
    (s.ea x.toNat ≤ 0xFFF →
      ∃ t, exec (.storeRegs x) s = .next t ∧
        (∀ r : Nibble, r.toNat ≤ x.toNat → t.mem.read (s.ea r.toNat) = s.reg r) ∧
        (∀ a, a < s.ea 0 ∨ s.ea x.toNat < a → t.mem.read a = s.mem.read a) ∧
        t.pc = s.pc + 2 ∧ OnlyChanges [.mem, .pc] s t) ∧
    (0xFFF < s.ea x.toNat →
      ∃ t, exec (.storeRegs x) s = .next t ∧ t.halt = true ∧ t.cause = some .dataBounds ∧ OnlyChanges [.halt, .cause] s t)

/-- R175: V0 to Vx from I to I + x and no other register, I unchanged; DataBounds with no register written when I + x is above 0xFFF. -/
def Obligations.LoadFillsV0ToVx : Prop :=
  ∀ (x : Nibble) (s : State),
    (s.ea x.toNat ≤ 0xFFF →
      ∃ t, exec (.loadRegs x) s = .next t ∧
        (∀ r : Nibble, r.toNat ≤ x.toNat → t.reg r = s.mem.read (s.ea r.toNat)) ∧
        (∀ r : Nibble, x.toNat < r.toNat → t.reg r = s.reg r) ∧
        t.pc = s.pc + 2 ∧ OnlyChanges [.v, .pc] s t) ∧
    (0xFFF < s.ea x.toNat →
      ∃ t, exec (.loadRegs x) s = .next t ∧ t.halt = true ∧ t.cause = some .dataBounds ∧ OnlyChanges [.halt, .cause] s t)

/-- R174, R175: a block stored by Fx55 and loaded back by Fx65 at the same I restores V0 to Vx. -/
def Obligations.LoadUndoesStore : Prop :=
  ∀ (x : Nibble) (s : State), s.mem.wf → s.ea x.toNat ≤ 0xFFF →
    ∃ t, exec (.storeRegs x) s = .next t ∧
      ∀ u : State, u.mem = t.mem → u.i = s.i →
        ∃ w, exec (.loadRegs x) u = .next w ∧ ∀ r : Nibble, r.toNat ≤ x.toNat → w.reg r = s.reg r

/-- R71, R64: bytes stored by Fx55 are what a later fetch covering them reads, the lower-numbered register as the high byte. -/
def Obligations.StoredBytesAreFetched : Prop :=
  ∀ (x r q : Nibble) (s : State), s.mem.wf → s.ea x.toNat ≤ 0xFFF → q.toNat ≤ x.toNat → q.toNat = r.toNat + 1 →
    ∃ t, exec (.storeRegs x) s = .next t ∧
      ∀ u : State, u.mem = t.mem → u.pc.toNat = s.ea r.toNat → u.fetch = some (s.reg r ++ s.reg q)

/-! ### Display -/

/-- R190: CLS zeroes every pixel and sets CHANGED; VF is not written. -/
def Obligations.ClearZeroesEveryPixel : Prop :=
  ∀ s : State,
    ∃ t, exec .cls s = .next t ∧ (∀ row col, t.fb.pixel row col = false) ∧ t.changed = true ∧ t.pc = s.pc + 2 ∧
      OnlyChanges [.fb, .changed, .pc] s t

/-- R191, R192: DRW inverts exactly the cells of S, VF = 1 exactly when one of them was 1, CHANGED is set; it faults with nothing written
when the last sprite row lies above 0xFFF. With n = 0 the set S is empty and there is no bounds check. -/
def Obligations.DrawInvertsTheSpriteCells : Prop :=
  ∀ (x y n : Nibble) (s : State),
    (n.toNat = 0 ∨ s.ea (n.toNat - 1) ≤ 0xFFF →
      ∃ t, exec (.drw x y n) s = .next t ∧
        (∀ row col, InSprite s x y n row col → t.fb.pixel row col = !s.fb.pixel row col) ∧
        (∀ row col, ¬ InSprite s x y n row col → t.fb.pixel row col = s.fb.pixel row col) ∧
        ((∃ row col, InSprite s x y n row col ∧ s.fb.pixel row col = true) → t.reg 15 = 1) ∧
        ((∀ row col, InSprite s x y n row col → s.fb.pixel row col = false) → t.reg 15 = 0) ∧
        (∀ r, r ≠ 15 → t.reg r = s.reg r) ∧ t.changed = true ∧ t.pc = s.pc + 2 ∧
        OnlyChanges [.v, .fb, .changed, .pc] s t) ∧
    (0 < n.toNat → 0xFFF < s.ea (n.toNat - 1) →
      ∃ t, exec (.drw x y n) s = .next t ∧ t.halt = true ∧ t.cause = some .dataBounds ∧ OnlyChanges [.halt, .cause] s t)

/-- R193: drawing the same sprite at the same coordinates twice restores the framebuffer, and VF then tells whether some cell of S was 0. -/
def Obligations.DrawTwiceRestoresThePixels : Prop :=
  ∀ (x y n : Nibble) (s : State), n.toNat = 0 ∨ s.ea (n.toNat - 1) ≤ 0xFFF →
    ∃ t, exec (.drw x y n) s = .next t ∧
      ∀ u : State, u.fb = t.fb → u.mem = s.mem → u.i = s.i → u.reg x = s.reg x → u.reg y = s.reg y →
        ∃ w, exec (.drw x y n) u = .next w ∧ (∀ row col, w.fb.pixel row col = s.fb.pixel row col) ∧
          (w.reg 15 = 1 ↔ ∃ row col, InSprite s x y n row col ∧ s.fb.pixel row col = false) ∧
          (w.reg 15 = 0 ∨ w.reg 15 = 1)

/-! ### Timers and keys -/

/-- R210, R211, R212: reading DT into Vx, and setting DT and ST from Vx; in a frame step the DT read is the decremented one. -/
def Obligations.TimersAreReadAndSet : Prop :=
  ∀ (x : Nibble) (s : State),
    (∃ t, exec (.ldVxDt x) s = .next t ∧ t.reg x = s.dt ∧ (∀ r, r ≠ x → t.reg r = s.reg r) ∧
      t.pc = s.pc + 2 ∧ OnlyChanges [.v, .pc] s t) ∧
    (∃ t, exec (.ldDtVx x) s = .next t ∧ t.dt = s.reg x ∧ t.pc = s.pc + 2 ∧ OnlyChanges [.dt, .pc] s t) ∧
    (∃ t, exec (.ldStVx x) s = .next t ∧ t.st = s.reg x ∧ t.pc = s.pc + 2 ∧ OnlyChanges [.st, .pc] s t) ∧
    (∀ k : Keys, s.running → s.nextInstr = some (.ldVxDt x) →
      ∃ t, frameStep k s = .next t ∧ (t.reg x).toNat = s.dt.toNat - 1)

/-- R213, R214: the key named by the value of Vx decides the skip; a value above 15 is KeyIndex with nothing written. -/
def Obligations.KeySkipsTestTheNamedKey : Prop :=
  ∀ (x : Nibble) (s : State),
    (∀ j : Fin 16, (s.reg x).toNat = j.val →
      (∃ t, exec (.skp x) s = .next t ∧ OnlyChanges [.pc] s t ∧
        (s.keys[j] = true → t.pc = s.pc + 4) ∧ (s.keys[j] = false → t.pc = s.pc + 2)) ∧
      (∃ t, exec (.sknp x) s = .next t ∧ OnlyChanges [.pc] s t ∧
        (s.keys[j] = false → t.pc = s.pc + 4) ∧ (s.keys[j] = true → t.pc = s.pc + 2))) ∧
    (15 < (s.reg x).toNat →
      (∃ t, exec (.skp x) s = .next t ∧ t.halt = true ∧ t.cause = some .keyIndex ∧ OnlyChanges [.halt, .cause] s t) ∧
      (∃ t, exec (.sknp x) s = .next t ∧ t.halt = true ∧ t.cause = some .keyIndex ∧ OnlyChanges [.halt, .cause] s t))

/-- R215: LD Vx, K sets the latch and its register and advances; it looks at no key and writes no V register. -/
def Obligations.KeyWaitIsOnlyLatched : Prop :=
  ∀ (x : Nibble) (s : State),
    ∃ t, exec (.ldVxK x) s = .next t ∧ t.wait = true ∧ t.waitReg = x ∧ t.pc = s.pc + 2 ∧
      OnlyChanges [.wait, .waitReg, .pc] s t
end

