-- ==== Sys2Proof/Laws/Fields.lean ====
section
/-! SUPPORT. The fields of a word and the words of the formats as natural numbers, and what follows for the encoder's words:
each field of a word the encoder writes is the operand it was written from. -/

namespace Sys2Proof

theorem toNat_append_eq {m n : Nat} (a : BitVec m) (b : BitVec n) : (a ++ b).toNat = a.toNat * 2 ^ n + b.toNat := by
  rw [BitVec.toNat_append, ← Nat.shiftLeft_add_eq_or_of_lt b.isLt, Nat.shiftLeft_eq]

/-! ### The formats of R92 -/

theorem wordNNN_toNat (d : Nibble) (nnn : Addr) : (wordNNN d nnn).toNat = d.toNat * 4096 + nnn.toNat :=
  toNat_append_eq d nnn

theorem wordXNN_toNat (d x : Nibble) (nn : Byte) :
    (wordXNN d x nn).toNat = d.toNat * 4096 + x.toNat * 256 + nn.toNat := by
  have h := toNat_append_eq (d ++ x) nn
  have h' := toNat_append_eq d x
  rw [wordXNN, h, h']
  omega

theorem wordXYN_toNat (d x y n : Nibble) :
    (wordXYN d x y n).toNat = d.toNat * 4096 + x.toNat * 256 + y.toNat * 16 + n.toNat := by
  have := toNat_append_eq (d ++ x ++ y) n
  have := toNat_append_eq (d ++ x) y
  have := toNat_append_eq d x
  simp only [wordXYN]
  omega

/-! ### The fields of R91 -/

theorem fieldD3_toNat (op : Word) : (fieldD3 op).toNat = op.toNat / 4096 := by
  simp only [fieldD3, BitVec.extractLsb'_toNat, Nat.shiftRight_eq_div_pow]
  omega

theorem fieldX_toNat (op : Word) : (fieldX op).toNat = op.toNat / 256 % 16 := by
  simp [fieldX, BitVec.extractLsb'_toNat, Nat.shiftRight_eq_div_pow]

theorem fieldY_toNat (op : Word) : (fieldY op).toNat = op.toNat / 16 % 16 := by
  simp [fieldY, BitVec.extractLsb'_toNat, Nat.shiftRight_eq_div_pow]

theorem fieldN_toNat (op : Word) : (fieldN op).toNat = op.toNat % 16 := by
  simp [fieldN, BitVec.extractLsb'_toNat, Nat.shiftRight_eq_div_pow]

theorem fieldNN_toNat (op : Word) : (fieldNN op).toNat = op.toNat % 256 := by
  simp [fieldNN, BitVec.extractLsb'_toNat, Nat.shiftRight_eq_div_pow]

theorem fieldNNN_toNat (op : Word) : (fieldNNN op).toNat = op.toNat % 4096 := by
  simp [fieldNNN, BitVec.extractLsb'_toNat, Nat.shiftRight_eq_div_pow]

/-! ### The fields of a word of each format -/

@[simp] theorem fieldD3_wordNNN (d : Nibble) (nnn : Addr) : fieldD3 (wordNNN d nnn) = d := by
  apply BitVec.eq_of_toNat_eq; rw [fieldD3_toNat, wordNNN_toNat]; omega

@[simp] theorem fieldNNN_wordNNN (d : Nibble) (nnn : Addr) : fieldNNN (wordNNN d nnn) = nnn := by
  apply BitVec.eq_of_toNat_eq; rw [fieldNNN_toNat, wordNNN_toNat]; omega

@[simp] theorem fieldD3_wordXNN (d x : Nibble) (nn : Byte) : fieldD3 (wordXNN d x nn) = d := by
  apply BitVec.eq_of_toNat_eq; rw [fieldD3_toNat, wordXNN_toNat]; omega

@[simp] theorem fieldX_wordXNN (d x : Nibble) (nn : Byte) : fieldX (wordXNN d x nn) = x := by
  apply BitVec.eq_of_toNat_eq; rw [fieldX_toNat, wordXNN_toNat]; omega

@[simp] theorem fieldNN_wordXNN (d x : Nibble) (nn : Byte) : fieldNN (wordXNN d x nn) = nn := by
  apply BitVec.eq_of_toNat_eq; rw [fieldNN_toNat, wordXNN_toNat]; omega

@[simp] theorem fieldD3_wordXYN (d x y n : Nibble) : fieldD3 (wordXYN d x y n) = d := by
  apply BitVec.eq_of_toNat_eq; rw [fieldD3_toNat, wordXYN_toNat]; omega

@[simp] theorem fieldX_wordXYN (d x y n : Nibble) : fieldX (wordXYN d x y n) = x := by
  apply BitVec.eq_of_toNat_eq; rw [fieldX_toNat, wordXYN_toNat]; omega

@[simp] theorem fieldY_wordXYN (d x y n : Nibble) : fieldY (wordXYN d x y n) = y := by
  apply BitVec.eq_of_toNat_eq; rw [fieldY_toNat, wordXYN_toNat]; omega

@[simp] theorem fieldN_wordXYN (d x y n : Nibble) : fieldN (wordXYN d x y n) = n := by
  apply BitVec.eq_of_toNat_eq; rw [fieldN_toNat, wordXYN_toNat]; omega

/-! ### A word from its fields and from its bytes -/

theorem wordXYN_fields (op : Word) : wordXYN (fieldD3 op) (fieldX op) (fieldY op) (fieldN op) = op := by
  apply BitVec.eq_of_toNat_eq
  rw [wordXYN_toNat, fieldD3_toNat, fieldX_toNat, fieldY_toNat, fieldN_toNat]; omega

theorem wordXNN_fields (op : Word) : wordXNN (fieldD3 op) (fieldX op) (fieldNN op) = op := by
  apply BitVec.eq_of_toNat_eq
  rw [wordXNN_toNat, fieldD3_toNat, fieldX_toNat, fieldNN_toNat]; omega

theorem wordNNN_fields (op : Word) : wordNNN (fieldD3 op) (fieldNNN op) = op := by
  apply BitVec.eq_of_toNat_eq
  rw [wordNNN_toNat, fieldD3_toNat, fieldNNN_toNat]; omega

/-- The bytes of a word in memory, read back as the fetch reads them (R63). -/
@[simp] theorem highByte_append_lowByte (op : Word) : highByte op ++ lowByte op = op := by
  apply BitVec.eq_of_toNat_eq
  rw [toNat_append_eq]
  simp only [highByte, lowByte, BitVec.extractLsb'_toNat, Nat.shiftRight_eq_div_pow]; omega

/-- Decoding from memory is decoding the word that lies there. -/
theorem decode_wordBytes (op : Word) (rest : List Byte) :
    decode (wordBytes op ++ rest) = (decodeWord op).map (fun i => (i, rest)) := by
  simp only [wordBytes, List.cons_append, List.nil_append, decode]
  erw [highByte_append_lowByte]
  cases decodeWord op <;> rfl

end Sys2Proof
end

