-- ==== Sys2Proof/Laws/Memory.lean ====
section
/-! SUPPORT. The laws of memory: a read after a write, and that every memory operation keeps the canonical form. -/

namespace Sys2Proof.Machine

@[simp] theorem Memory.read_nil (a : Nat) : Memory.read [] a = Memory.unlisted a := rfl

/-- From 0x050 on, memory that nothing has written is zero (20_memory.md R66). -/
@[simp] theorem Memory.unlisted_of_le {a : Nat} (h : 80 ≤ a) : Memory.unlisted a = 0 := by
  simp [Memory.unlisted, Nat.not_lt.mpr h]

/-- An address below every listed one reads as its reset contents. -/
theorem Memory.read_of_lt {m : Memory} {a : Nat} (h : ∀ p ∈ m, a < p.1) : m.read a = Memory.unlisted a := by
  induction m with
  | nil => rfl
  | cons p m ih =>
    have hp := h p (by simp)
    rw [Memory.read, if_neg (by omega)]
    exact ih fun q hq => h q (by simp [hq])

/-- A write gives its cell the value written and leaves every other cell alone, in a memory sorted by address. -/
theorem Memory.read_write {m : Memory} (h : m.Pairwise (fun p q => p.1 < q.1)) (a b : Nat) (v : Byte) :
    (m.write a v).read b = if b = a then v else m.read b := by
  induction m with
  | nil =>
    by_cases hv : v = Memory.unlisted a <;> by_cases hb : b = a <;> simp [Memory.write, Memory.read, hv, hb]
  | cons p m ih =>
    obtain ⟨c, w⟩ := p
    obtain ⟨hc, hm⟩ := List.pairwise_cons.mp h
    have below : ∀ a ≤ c, ∀ q ∈ m, a < q.1 := fun a ha q hq => by have := hc q hq; simp only at this; omega
    rcases Nat.lt_trichotomy a c with hlt | rfl | hgt
    · by_cases hv : v = Memory.unlisted a <;> by_cases hb : b = a
      · subst hb
        simp [Memory.write, Memory.read, hlt, hv, show b ≠ c by omega, Memory.read_of_lt (below b (by omega))]
      all_goals simp [Memory.write, Memory.read, hlt, hv, hb]
    · by_cases hv : v = Memory.unlisted a <;> by_cases hb : b = a
      · subst hb; simp [Memory.write, hv, Memory.read_of_lt (below b (by omega))]
      all_goals simp [Memory.write, Memory.read, hv, hb]
    · have hne : a ≠ c := by omega
      by_cases hb : b = c
      · subst hb; simp [Memory.write, Memory.read, show ¬ a < b by omega, hne, show b ≠ a by omega]
      · simp [Memory.write, Memory.read, show ¬ a < c by omega, hne, hb, ih hm]

/-- What a write can list: what was listed, and its own cell if it now differs from its reset contents. -/
theorem Memory.mem_write {m : Memory} {a : Nat} {v : Byte} {p : Host.Cell} (h : p ∈ m.write a v) :
    p ∈ m ∨ (p = (a, v) ∧ v ≠ Memory.unlisted a) := by
  induction m with
  | nil => by_cases hv : v = Memory.unlisted a <;> simp_all [Memory.write]
  | cons q m ih =>
    obtain ⟨c, w⟩ := q
    simp only [Memory.write] at h
    split_ifs at h with h1 h2 h3 h4 <;> simp only [List.mem_cons] at h ⊢ <;> tauto

/-- A write keeps the canonical form. -/
theorem Memory.wf_write {m : Memory} (h : m.wf) {a : Nat} (ha : a ≤ 0xFFF) (v : Byte) : (m.write a v).wf := by
  refine ⟨?_, fun p hp => ?_⟩
  · have hm := h.1
    clear h
    induction m with
    | nil => by_cases hv : v = Memory.unlisted a <;> simp [Memory.write, hv]
    | cons q m ih =>
      obtain ⟨c, w⟩ := q
      obtain ⟨hc, hm'⟩ := List.pairwise_cons.mp hm
      simp only [Memory.write]
      split_ifs with h1 h2 h3 h4
      · exact hm
      · refine List.pairwise_cons.mpr ⟨fun p hp => ?_, hm⟩
        rcases List.mem_cons.mp hp with rfl | hp
        · exact h1
        · have := hc p hp; simp only at this ⊢; omega
      · exact hm'
      · subst h3; exact List.pairwise_cons.mpr ⟨hc, hm'⟩
      · refine List.pairwise_cons.mpr ⟨fun p hp => ?_, ih hm'⟩
        rcases Memory.mem_write hp with hp | ⟨rfl, -⟩
        · exact hc p hp
        · simp only; omega
  · rcases Memory.mem_write hp with hp | ⟨rfl, hv⟩
    · exact h.2 p hp
    · exact ⟨ha, hv⟩

/-- A block of bytes stored within memory keeps the canonical form. -/
theorem Memory.wf_writeBytes {m : Memory} (h : m.wf) {a : Nat} {bs : List Byte} (ha : a + bs.length ≤ 0x1000) :
    (m.writeBytes a bs).wf := by
  induction bs generalizing m a with
  | nil => exact h
  | cons b bs ih =>
    simp only [List.length_cons] at ha
    exact ih (Memory.wf_write h (by omega) b) (by omega)

/-- After a block of bytes is stored, its cells hold the bytes and every other cell what it held. -/
theorem Memory.read_writeBytes {m : Memory} (h : m.wf) {a : Nat} {bs : List Byte} (ha : a + bs.length ≤ 0x1000) (b : Nat) :
    (m.writeBytes a bs).read b = if h : a ≤ b ∧ b - a < bs.length then bs[b - a] else m.read b := by
  induction bs generalizing m a with
  | nil => simp [Memory.writeBytes]
  | cons v bs ih =>
    simp only [List.length_cons] at ha
    rw [Memory.writeBytes, ih (Memory.wf_write h (by omega) v) (by omega), Memory.read_write h.1]
    rcases Nat.lt_trichotomy b a with hlt | rfl | hgt
    · simp [show ¬ (a + 1 ≤ b) by omega, show ¬ a ≤ b by omega, show b ≠ a by omega]
    · simp
    · obtain ⟨k, rfl⟩ : ∃ k, b = a + 1 + k := ⟨b - (a + 1), by omega⟩
      simp [show a + 1 + k - a = k + 1 by omega, show a ≤ a + 1 + k by omega, show a + 1 + k ≠ a by omega]

/-- The reset memory is in its canonical form. -/
theorem State.reset_mem_wf : State.reset.mem.wf := by decide

end Sys2Proof.Machine
end

