-- ==== Sys2Proof/Laws/State.lean ====
section
/-! SUPPORT. What each update of the state leaves in each field: one lemma per field per update, all true by unfolding,
so that no proof unfolds an update. -/

namespace Sys2Proof.Machine

variable (s : State)

/-! ### setReg -/

@[simp] theorem State.setReg_v (x : Nibble) (b : Byte) : (s.setReg x b).v = s.v.set x.toNat b x.isLt := rfl
@[simp] theorem State.setReg_i (x : Nibble) (b : Byte) : (s.setReg x b).i = s.i := rfl
@[simp] theorem State.setReg_pc (x : Nibble) (b : Byte) : (s.setReg x b).pc = s.pc := rfl
@[simp] theorem State.setReg_stk (x : Nibble) (b : Byte) : (s.setReg x b).stk = s.stk := rfl
@[simp] theorem State.setReg_dt (x : Nibble) (b : Byte) : (s.setReg x b).dt = s.dt := rfl
@[simp] theorem State.setReg_st (x : Nibble) (b : Byte) : (s.setReg x b).st = s.st := rfl
@[simp] theorem State.setReg_keys (x : Nibble) (b : Byte) : (s.setReg x b).keys = s.keys := rfl
@[simp] theorem State.setReg_wait (x : Nibble) (b : Byte) : (s.setReg x b).wait = s.wait := rfl
@[simp] theorem State.setReg_waitReg (x : Nibble) (b : Byte) : (s.setReg x b).waitReg = s.waitReg := rfl
@[simp] theorem State.setReg_fb (x : Nibble) (b : Byte) : (s.setReg x b).fb = s.fb := rfl
@[simp] theorem State.setReg_changed (x : Nibble) (b : Byte) : (s.setReg x b).changed = s.changed := rfl
@[simp] theorem State.setReg_mem (x : Nibble) (b : Byte) : (s.setReg x b).mem = s.mem := rfl
@[simp] theorem State.setReg_halt (x : Nibble) (b : Byte) : (s.setReg x b).halt = s.halt := rfl
@[simp] theorem State.setReg_cause (x : Nibble) (b : Byte) : (s.setReg x b).cause = s.cause := rfl
@[simp] theorem State.setReg_frameNo (x : Nibble) (b : Byte) : (s.setReg x b).frameNo = s.frameNo := rfl
@[simp] theorem State.setReg_drawNo (x : Nibble) (b : Byte) : (s.setReg x b).drawNo = s.drawNo := rfl

/-! ### setRegs -/

@[simp] theorem State.setRegs_v (v : Vector Byte 16) : (s.setRegs v).v = v := rfl
@[simp] theorem State.setRegs_i (v : Vector Byte 16) : (s.setRegs v).i = s.i := rfl
@[simp] theorem State.setRegs_pc (v : Vector Byte 16) : (s.setRegs v).pc = s.pc := rfl
@[simp] theorem State.setRegs_stk (v : Vector Byte 16) : (s.setRegs v).stk = s.stk := rfl
@[simp] theorem State.setRegs_dt (v : Vector Byte 16) : (s.setRegs v).dt = s.dt := rfl
@[simp] theorem State.setRegs_st (v : Vector Byte 16) : (s.setRegs v).st = s.st := rfl
@[simp] theorem State.setRegs_keys (v : Vector Byte 16) : (s.setRegs v).keys = s.keys := rfl
@[simp] theorem State.setRegs_wait (v : Vector Byte 16) : (s.setRegs v).wait = s.wait := rfl
@[simp] theorem State.setRegs_waitReg (v : Vector Byte 16) : (s.setRegs v).waitReg = s.waitReg := rfl
@[simp] theorem State.setRegs_fb (v : Vector Byte 16) : (s.setRegs v).fb = s.fb := rfl
@[simp] theorem State.setRegs_changed (v : Vector Byte 16) : (s.setRegs v).changed = s.changed := rfl
@[simp] theorem State.setRegs_mem (v : Vector Byte 16) : (s.setRegs v).mem = s.mem := rfl
@[simp] theorem State.setRegs_halt (v : Vector Byte 16) : (s.setRegs v).halt = s.halt := rfl
@[simp] theorem State.setRegs_cause (v : Vector Byte 16) : (s.setRegs v).cause = s.cause := rfl
@[simp] theorem State.setRegs_frameNo (v : Vector Byte 16) : (s.setRegs v).frameNo = s.frameNo := rfl
@[simp] theorem State.setRegs_drawNo (v : Vector Byte 16) : (s.setRegs v).drawNo = s.drawNo := rfl

/-! ### setI -/

@[simp] theorem State.setI_v (a : Word) : (s.setI a).v = s.v := rfl
@[simp] theorem State.setI_i (a : Word) : (s.setI a).i = a := rfl
@[simp] theorem State.setI_pc (a : Word) : (s.setI a).pc = s.pc := rfl
@[simp] theorem State.setI_stk (a : Word) : (s.setI a).stk = s.stk := rfl
@[simp] theorem State.setI_dt (a : Word) : (s.setI a).dt = s.dt := rfl
@[simp] theorem State.setI_st (a : Word) : (s.setI a).st = s.st := rfl
@[simp] theorem State.setI_keys (a : Word) : (s.setI a).keys = s.keys := rfl
@[simp] theorem State.setI_wait (a : Word) : (s.setI a).wait = s.wait := rfl
@[simp] theorem State.setI_waitReg (a : Word) : (s.setI a).waitReg = s.waitReg := rfl
@[simp] theorem State.setI_fb (a : Word) : (s.setI a).fb = s.fb := rfl
@[simp] theorem State.setI_changed (a : Word) : (s.setI a).changed = s.changed := rfl
@[simp] theorem State.setI_mem (a : Word) : (s.setI a).mem = s.mem := rfl
@[simp] theorem State.setI_halt (a : Word) : (s.setI a).halt = s.halt := rfl
@[simp] theorem State.setI_cause (a : Word) : (s.setI a).cause = s.cause := rfl
@[simp] theorem State.setI_frameNo (a : Word) : (s.setI a).frameNo = s.frameNo := rfl
@[simp] theorem State.setI_drawNo (a : Word) : (s.setI a).drawNo = s.drawNo := rfl
@[simp] theorem State.setI_reg (a : Word) (r : Nibble) : (s.setI a).reg r = s.reg r := rfl

/-! ### setPc -/

@[simp] theorem State.setPc_v (a : Word) : (s.setPc a).v = s.v := rfl
@[simp] theorem State.setPc_i (a : Word) : (s.setPc a).i = s.i := rfl
@[simp] theorem State.setPc_pc (a : Word) : (s.setPc a).pc = a := rfl
@[simp] theorem State.setPc_stk (a : Word) : (s.setPc a).stk = s.stk := rfl
@[simp] theorem State.setPc_dt (a : Word) : (s.setPc a).dt = s.dt := rfl
@[simp] theorem State.setPc_st (a : Word) : (s.setPc a).st = s.st := rfl
@[simp] theorem State.setPc_keys (a : Word) : (s.setPc a).keys = s.keys := rfl
@[simp] theorem State.setPc_wait (a : Word) : (s.setPc a).wait = s.wait := rfl
@[simp] theorem State.setPc_waitReg (a : Word) : (s.setPc a).waitReg = s.waitReg := rfl
@[simp] theorem State.setPc_fb (a : Word) : (s.setPc a).fb = s.fb := rfl
@[simp] theorem State.setPc_changed (a : Word) : (s.setPc a).changed = s.changed := rfl
@[simp] theorem State.setPc_mem (a : Word) : (s.setPc a).mem = s.mem := rfl
@[simp] theorem State.setPc_halt (a : Word) : (s.setPc a).halt = s.halt := rfl
@[simp] theorem State.setPc_cause (a : Word) : (s.setPc a).cause = s.cause := rfl
@[simp] theorem State.setPc_frameNo (a : Word) : (s.setPc a).frameNo = s.frameNo := rfl
@[simp] theorem State.setPc_drawNo (a : Word) : (s.setPc a).drawNo = s.drawNo := rfl
@[simp] theorem State.setPc_reg (a : Word) (r : Nibble) : (s.setPc a).reg r = s.reg r := rfl

/-! ### setStk -/

@[simp] theorem State.setStk_v (k : List Word) : (s.setStk k).v = s.v := rfl
@[simp] theorem State.setStk_i (k : List Word) : (s.setStk k).i = s.i := rfl
@[simp] theorem State.setStk_pc (k : List Word) : (s.setStk k).pc = s.pc := rfl
@[simp] theorem State.setStk_stk (k : List Word) : (s.setStk k).stk = k := rfl
@[simp] theorem State.setStk_dt (k : List Word) : (s.setStk k).dt = s.dt := rfl
@[simp] theorem State.setStk_st (k : List Word) : (s.setStk k).st = s.st := rfl
@[simp] theorem State.setStk_keys (k : List Word) : (s.setStk k).keys = s.keys := rfl
@[simp] theorem State.setStk_wait (k : List Word) : (s.setStk k).wait = s.wait := rfl
@[simp] theorem State.setStk_waitReg (k : List Word) : (s.setStk k).waitReg = s.waitReg := rfl
@[simp] theorem State.setStk_fb (k : List Word) : (s.setStk k).fb = s.fb := rfl
@[simp] theorem State.setStk_changed (k : List Word) : (s.setStk k).changed = s.changed := rfl
@[simp] theorem State.setStk_mem (k : List Word) : (s.setStk k).mem = s.mem := rfl
@[simp] theorem State.setStk_halt (k : List Word) : (s.setStk k).halt = s.halt := rfl
@[simp] theorem State.setStk_cause (k : List Word) : (s.setStk k).cause = s.cause := rfl
@[simp] theorem State.setStk_frameNo (k : List Word) : (s.setStk k).frameNo = s.frameNo := rfl
@[simp] theorem State.setStk_drawNo (k : List Word) : (s.setStk k).drawNo = s.drawNo := rfl
@[simp] theorem State.setStk_reg (k : List Word) (r : Nibble) : (s.setStk k).reg r = s.reg r := rfl

/-! ### setDt -/

@[simp] theorem State.setDt_v (b : Byte) : (s.setDt b).v = s.v := rfl
@[simp] theorem State.setDt_i (b : Byte) : (s.setDt b).i = s.i := rfl
@[simp] theorem State.setDt_pc (b : Byte) : (s.setDt b).pc = s.pc := rfl
@[simp] theorem State.setDt_stk (b : Byte) : (s.setDt b).stk = s.stk := rfl
@[simp] theorem State.setDt_dt (b : Byte) : (s.setDt b).dt = b := rfl
@[simp] theorem State.setDt_st (b : Byte) : (s.setDt b).st = s.st := rfl
@[simp] theorem State.setDt_keys (b : Byte) : (s.setDt b).keys = s.keys := rfl
@[simp] theorem State.setDt_wait (b : Byte) : (s.setDt b).wait = s.wait := rfl
@[simp] theorem State.setDt_waitReg (b : Byte) : (s.setDt b).waitReg = s.waitReg := rfl
@[simp] theorem State.setDt_fb (b : Byte) : (s.setDt b).fb = s.fb := rfl
@[simp] theorem State.setDt_changed (b : Byte) : (s.setDt b).changed = s.changed := rfl
@[simp] theorem State.setDt_mem (b : Byte) : (s.setDt b).mem = s.mem := rfl
@[simp] theorem State.setDt_halt (b : Byte) : (s.setDt b).halt = s.halt := rfl
@[simp] theorem State.setDt_cause (b : Byte) : (s.setDt b).cause = s.cause := rfl
@[simp] theorem State.setDt_frameNo (b : Byte) : (s.setDt b).frameNo = s.frameNo := rfl
@[simp] theorem State.setDt_drawNo (b : Byte) : (s.setDt b).drawNo = s.drawNo := rfl
@[simp] theorem State.setDt_reg (b : Byte) (r : Nibble) : (s.setDt b).reg r = s.reg r := rfl

/-! ### setSt -/

@[simp] theorem State.setSt_v (b : Byte) : (s.setSt b).v = s.v := rfl
@[simp] theorem State.setSt_i (b : Byte) : (s.setSt b).i = s.i := rfl
@[simp] theorem State.setSt_pc (b : Byte) : (s.setSt b).pc = s.pc := rfl
@[simp] theorem State.setSt_stk (b : Byte) : (s.setSt b).stk = s.stk := rfl
@[simp] theorem State.setSt_dt (b : Byte) : (s.setSt b).dt = s.dt := rfl
@[simp] theorem State.setSt_st (b : Byte) : (s.setSt b).st = b := rfl
@[simp] theorem State.setSt_keys (b : Byte) : (s.setSt b).keys = s.keys := rfl
@[simp] theorem State.setSt_wait (b : Byte) : (s.setSt b).wait = s.wait := rfl
@[simp] theorem State.setSt_waitReg (b : Byte) : (s.setSt b).waitReg = s.waitReg := rfl
@[simp] theorem State.setSt_fb (b : Byte) : (s.setSt b).fb = s.fb := rfl
@[simp] theorem State.setSt_changed (b : Byte) : (s.setSt b).changed = s.changed := rfl
@[simp] theorem State.setSt_mem (b : Byte) : (s.setSt b).mem = s.mem := rfl
@[simp] theorem State.setSt_halt (b : Byte) : (s.setSt b).halt = s.halt := rfl
@[simp] theorem State.setSt_cause (b : Byte) : (s.setSt b).cause = s.cause := rfl
@[simp] theorem State.setSt_frameNo (b : Byte) : (s.setSt b).frameNo = s.frameNo := rfl
@[simp] theorem State.setSt_drawNo (b : Byte) : (s.setSt b).drawNo = s.drawNo := rfl
@[simp] theorem State.setSt_reg (b : Byte) (r : Nibble) : (s.setSt b).reg r = s.reg r := rfl

/-! ### setWait -/

@[simp] theorem State.setWait_v (w : Bool) : (s.setWait w).v = s.v := rfl
@[simp] theorem State.setWait_i (w : Bool) : (s.setWait w).i = s.i := rfl
@[simp] theorem State.setWait_pc (w : Bool) : (s.setWait w).pc = s.pc := rfl
@[simp] theorem State.setWait_stk (w : Bool) : (s.setWait w).stk = s.stk := rfl
@[simp] theorem State.setWait_dt (w : Bool) : (s.setWait w).dt = s.dt := rfl
@[simp] theorem State.setWait_st (w : Bool) : (s.setWait w).st = s.st := rfl
@[simp] theorem State.setWait_keys (w : Bool) : (s.setWait w).keys = s.keys := rfl
@[simp] theorem State.setWait_wait (w : Bool) : (s.setWait w).wait = w := rfl
@[simp] theorem State.setWait_waitReg (w : Bool) : (s.setWait w).waitReg = s.waitReg := rfl
@[simp] theorem State.setWait_fb (w : Bool) : (s.setWait w).fb = s.fb := rfl
@[simp] theorem State.setWait_changed (w : Bool) : (s.setWait w).changed = s.changed := rfl
@[simp] theorem State.setWait_mem (w : Bool) : (s.setWait w).mem = s.mem := rfl
@[simp] theorem State.setWait_halt (w : Bool) : (s.setWait w).halt = s.halt := rfl
@[simp] theorem State.setWait_cause (w : Bool) : (s.setWait w).cause = s.cause := rfl
@[simp] theorem State.setWait_frameNo (w : Bool) : (s.setWait w).frameNo = s.frameNo := rfl
@[simp] theorem State.setWait_drawNo (w : Bool) : (s.setWait w).drawNo = s.drawNo := rfl
@[simp] theorem State.setWait_reg (w : Bool) (r : Nibble) : (s.setWait w).reg r = s.reg r := rfl

/-! ### setWaitReg -/

@[simp] theorem State.setWaitReg_v (x : Nibble) : (s.setWaitReg x).v = s.v := rfl
@[simp] theorem State.setWaitReg_i (x : Nibble) : (s.setWaitReg x).i = s.i := rfl
@[simp] theorem State.setWaitReg_pc (x : Nibble) : (s.setWaitReg x).pc = s.pc := rfl
@[simp] theorem State.setWaitReg_stk (x : Nibble) : (s.setWaitReg x).stk = s.stk := rfl
@[simp] theorem State.setWaitReg_dt (x : Nibble) : (s.setWaitReg x).dt = s.dt := rfl
@[simp] theorem State.setWaitReg_st (x : Nibble) : (s.setWaitReg x).st = s.st := rfl
@[simp] theorem State.setWaitReg_keys (x : Nibble) : (s.setWaitReg x).keys = s.keys := rfl
@[simp] theorem State.setWaitReg_wait (x : Nibble) : (s.setWaitReg x).wait = s.wait := rfl
@[simp] theorem State.setWaitReg_waitReg (x : Nibble) : (s.setWaitReg x).waitReg = x := rfl
@[simp] theorem State.setWaitReg_fb (x : Nibble) : (s.setWaitReg x).fb = s.fb := rfl
@[simp] theorem State.setWaitReg_changed (x : Nibble) : (s.setWaitReg x).changed = s.changed := rfl
@[simp] theorem State.setWaitReg_mem (x : Nibble) : (s.setWaitReg x).mem = s.mem := rfl
@[simp] theorem State.setWaitReg_halt (x : Nibble) : (s.setWaitReg x).halt = s.halt := rfl
@[simp] theorem State.setWaitReg_cause (x : Nibble) : (s.setWaitReg x).cause = s.cause := rfl
@[simp] theorem State.setWaitReg_frameNo (x : Nibble) : (s.setWaitReg x).frameNo = s.frameNo := rfl
@[simp] theorem State.setWaitReg_drawNo (x : Nibble) : (s.setWaitReg x).drawNo = s.drawNo := rfl
@[simp] theorem State.setWaitReg_reg (x : Nibble) (r : Nibble) : (s.setWaitReg x).reg r = s.reg r := rfl

/-! ### setFb -/

@[simp] theorem State.setFb_v (f : Framebuffer) : (s.setFb f).v = s.v := rfl
@[simp] theorem State.setFb_i (f : Framebuffer) : (s.setFb f).i = s.i := rfl
@[simp] theorem State.setFb_pc (f : Framebuffer) : (s.setFb f).pc = s.pc := rfl
@[simp] theorem State.setFb_stk (f : Framebuffer) : (s.setFb f).stk = s.stk := rfl
@[simp] theorem State.setFb_dt (f : Framebuffer) : (s.setFb f).dt = s.dt := rfl
@[simp] theorem State.setFb_st (f : Framebuffer) : (s.setFb f).st = s.st := rfl
@[simp] theorem State.setFb_keys (f : Framebuffer) : (s.setFb f).keys = s.keys := rfl
@[simp] theorem State.setFb_wait (f : Framebuffer) : (s.setFb f).wait = s.wait := rfl
@[simp] theorem State.setFb_waitReg (f : Framebuffer) : (s.setFb f).waitReg = s.waitReg := rfl
@[simp] theorem State.setFb_fb (f : Framebuffer) : (s.setFb f).fb = f := rfl
@[simp] theorem State.setFb_changed (f : Framebuffer) : (s.setFb f).changed = s.changed := rfl
@[simp] theorem State.setFb_mem (f : Framebuffer) : (s.setFb f).mem = s.mem := rfl
@[simp] theorem State.setFb_halt (f : Framebuffer) : (s.setFb f).halt = s.halt := rfl
@[simp] theorem State.setFb_cause (f : Framebuffer) : (s.setFb f).cause = s.cause := rfl
@[simp] theorem State.setFb_frameNo (f : Framebuffer) : (s.setFb f).frameNo = s.frameNo := rfl
@[simp] theorem State.setFb_drawNo (f : Framebuffer) : (s.setFb f).drawNo = s.drawNo := rfl
@[simp] theorem State.setFb_reg (f : Framebuffer) (r : Nibble) : (s.setFb f).reg r = s.reg r := rfl

/-! ### setChanged -/

@[simp] theorem State.setChanged_v (c : Bool) : (s.setChanged c).v = s.v := rfl
@[simp] theorem State.setChanged_i (c : Bool) : (s.setChanged c).i = s.i := rfl
@[simp] theorem State.setChanged_pc (c : Bool) : (s.setChanged c).pc = s.pc := rfl
@[simp] theorem State.setChanged_stk (c : Bool) : (s.setChanged c).stk = s.stk := rfl
@[simp] theorem State.setChanged_dt (c : Bool) : (s.setChanged c).dt = s.dt := rfl
@[simp] theorem State.setChanged_st (c : Bool) : (s.setChanged c).st = s.st := rfl
@[simp] theorem State.setChanged_keys (c : Bool) : (s.setChanged c).keys = s.keys := rfl
@[simp] theorem State.setChanged_wait (c : Bool) : (s.setChanged c).wait = s.wait := rfl
@[simp] theorem State.setChanged_waitReg (c : Bool) : (s.setChanged c).waitReg = s.waitReg := rfl
@[simp] theorem State.setChanged_fb (c : Bool) : (s.setChanged c).fb = s.fb := rfl
@[simp] theorem State.setChanged_changed (c : Bool) : (s.setChanged c).changed = c := rfl
@[simp] theorem State.setChanged_mem (c : Bool) : (s.setChanged c).mem = s.mem := rfl
@[simp] theorem State.setChanged_halt (c : Bool) : (s.setChanged c).halt = s.halt := rfl
@[simp] theorem State.setChanged_cause (c : Bool) : (s.setChanged c).cause = s.cause := rfl
@[simp] theorem State.setChanged_frameNo (c : Bool) : (s.setChanged c).frameNo = s.frameNo := rfl
@[simp] theorem State.setChanged_drawNo (c : Bool) : (s.setChanged c).drawNo = s.drawNo := rfl
@[simp] theorem State.setChanged_reg (c : Bool) (r : Nibble) : (s.setChanged c).reg r = s.reg r := rfl

/-! ### setMem -/

@[simp] theorem State.setMem_v (m : Memory) : (s.setMem m).v = s.v := rfl
@[simp] theorem State.setMem_i (m : Memory) : (s.setMem m).i = s.i := rfl
@[simp] theorem State.setMem_pc (m : Memory) : (s.setMem m).pc = s.pc := rfl
@[simp] theorem State.setMem_stk (m : Memory) : (s.setMem m).stk = s.stk := rfl
@[simp] theorem State.setMem_dt (m : Memory) : (s.setMem m).dt = s.dt := rfl
@[simp] theorem State.setMem_st (m : Memory) : (s.setMem m).st = s.st := rfl
@[simp] theorem State.setMem_keys (m : Memory) : (s.setMem m).keys = s.keys := rfl
@[simp] theorem State.setMem_wait (m : Memory) : (s.setMem m).wait = s.wait := rfl
@[simp] theorem State.setMem_waitReg (m : Memory) : (s.setMem m).waitReg = s.waitReg := rfl
@[simp] theorem State.setMem_fb (m : Memory) : (s.setMem m).fb = s.fb := rfl
@[simp] theorem State.setMem_changed (m : Memory) : (s.setMem m).changed = s.changed := rfl
@[simp] theorem State.setMem_mem (m : Memory) : (s.setMem m).mem = m := rfl
@[simp] theorem State.setMem_halt (m : Memory) : (s.setMem m).halt = s.halt := rfl
@[simp] theorem State.setMem_cause (m : Memory) : (s.setMem m).cause = s.cause := rfl
@[simp] theorem State.setMem_frameNo (m : Memory) : (s.setMem m).frameNo = s.frameNo := rfl
@[simp] theorem State.setMem_drawNo (m : Memory) : (s.setMem m).drawNo = s.drawNo := rfl
@[simp] theorem State.setMem_reg (m : Memory) (r : Nibble) : (s.setMem m).reg r = s.reg r := rfl

/-! ### sampleKeys -/

@[simp] theorem State.sampleKeys_v (k : Keys) : (s.sampleKeys k).v = s.v := rfl
@[simp] theorem State.sampleKeys_i (k : Keys) : (s.sampleKeys k).i = s.i := rfl
@[simp] theorem State.sampleKeys_pc (k : Keys) : (s.sampleKeys k).pc = s.pc := rfl
@[simp] theorem State.sampleKeys_stk (k : Keys) : (s.sampleKeys k).stk = s.stk := rfl
@[simp] theorem State.sampleKeys_dt (k : Keys) : (s.sampleKeys k).dt = s.dt := rfl
@[simp] theorem State.sampleKeys_st (k : Keys) : (s.sampleKeys k).st = s.st := rfl
@[simp] theorem State.sampleKeys_keys (k : Keys) : (s.sampleKeys k).keys = k := rfl
@[simp] theorem State.sampleKeys_wait (k : Keys) : (s.sampleKeys k).wait = s.wait := rfl
@[simp] theorem State.sampleKeys_waitReg (k : Keys) : (s.sampleKeys k).waitReg = s.waitReg := rfl
@[simp] theorem State.sampleKeys_fb (k : Keys) : (s.sampleKeys k).fb = s.fb := rfl
@[simp] theorem State.sampleKeys_changed (k : Keys) : (s.sampleKeys k).changed = s.changed := rfl
@[simp] theorem State.sampleKeys_mem (k : Keys) : (s.sampleKeys k).mem = s.mem := rfl
@[simp] theorem State.sampleKeys_halt (k : Keys) : (s.sampleKeys k).halt = s.halt := rfl
@[simp] theorem State.sampleKeys_cause (k : Keys) : (s.sampleKeys k).cause = s.cause := rfl
@[simp] theorem State.sampleKeys_frameNo (k : Keys) : (s.sampleKeys k).frameNo = s.frameNo + 1 := rfl
@[simp] theorem State.sampleKeys_drawNo (k : Keys) : (s.sampleKeys k).drawNo = s.drawNo := rfl
@[simp] theorem State.sampleKeys_reg (k : Keys) (r : Nibble) : (s.sampleKeys k).reg r = s.reg r := rfl

/-! ### useDraw -/

@[simp] theorem State.useDraw_v : s.useDraw.v = s.v := rfl
@[simp] theorem State.useDraw_i : s.useDraw.i = s.i := rfl
@[simp] theorem State.useDraw_pc : s.useDraw.pc = s.pc := rfl
@[simp] theorem State.useDraw_stk : s.useDraw.stk = s.stk := rfl
@[simp] theorem State.useDraw_dt : s.useDraw.dt = s.dt := rfl
@[simp] theorem State.useDraw_st : s.useDraw.st = s.st := rfl
@[simp] theorem State.useDraw_keys : s.useDraw.keys = s.keys := rfl
@[simp] theorem State.useDraw_wait : s.useDraw.wait = s.wait := rfl
@[simp] theorem State.useDraw_waitReg : s.useDraw.waitReg = s.waitReg := rfl
@[simp] theorem State.useDraw_fb : s.useDraw.fb = s.fb := rfl
@[simp] theorem State.useDraw_changed : s.useDraw.changed = s.changed := rfl
@[simp] theorem State.useDraw_mem : s.useDraw.mem = s.mem := rfl
@[simp] theorem State.useDraw_halt : s.useDraw.halt = s.halt := rfl
@[simp] theorem State.useDraw_cause : s.useDraw.cause = s.cause := rfl
@[simp] theorem State.useDraw_frameNo : s.useDraw.frameNo = s.frameNo := rfl
@[simp] theorem State.useDraw_drawNo : s.useDraw.drawNo = s.drawNo + 1 := rfl
@[simp] theorem State.useDraw_reg (r : Nibble) : s.useDraw.reg r = s.reg r := rfl

/-! ### advance -/

@[simp] theorem State.advance_v : s.advance.v = s.v := rfl
@[simp] theorem State.advance_i : s.advance.i = s.i := rfl
@[simp] theorem State.advance_pc : s.advance.pc = s.pc + 2 := rfl
@[simp] theorem State.advance_stk : s.advance.stk = s.stk := rfl
@[simp] theorem State.advance_dt : s.advance.dt = s.dt := rfl
@[simp] theorem State.advance_st : s.advance.st = s.st := rfl
@[simp] theorem State.advance_keys : s.advance.keys = s.keys := rfl
@[simp] theorem State.advance_wait : s.advance.wait = s.wait := rfl
@[simp] theorem State.advance_waitReg : s.advance.waitReg = s.waitReg := rfl
@[simp] theorem State.advance_fb : s.advance.fb = s.fb := rfl
@[simp] theorem State.advance_changed : s.advance.changed = s.changed := rfl
@[simp] theorem State.advance_mem : s.advance.mem = s.mem := rfl
@[simp] theorem State.advance_halt : s.advance.halt = s.halt := rfl
@[simp] theorem State.advance_cause : s.advance.cause = s.cause := rfl
@[simp] theorem State.advance_frameNo : s.advance.frameNo = s.frameNo := rfl
@[simp] theorem State.advance_drawNo : s.advance.drawNo = s.drawNo := rfl
@[simp] theorem State.advance_reg (r : Nibble) : s.advance.reg r = s.reg r := rfl

/-! ### skipIf -/

@[simp] theorem State.skipIf_v (c : Bool) : (s.skipIf c).v = s.v := rfl
@[simp] theorem State.skipIf_i (c : Bool) : (s.skipIf c).i = s.i := rfl
@[simp] theorem State.skipIf_pc (c : Bool) : (s.skipIf c).pc = s.pc + if c then 4 else 2 := rfl
@[simp] theorem State.skipIf_stk (c : Bool) : (s.skipIf c).stk = s.stk := rfl
@[simp] theorem State.skipIf_dt (c : Bool) : (s.skipIf c).dt = s.dt := rfl
@[simp] theorem State.skipIf_st (c : Bool) : (s.skipIf c).st = s.st := rfl
@[simp] theorem State.skipIf_keys (c : Bool) : (s.skipIf c).keys = s.keys := rfl
@[simp] theorem State.skipIf_wait (c : Bool) : (s.skipIf c).wait = s.wait := rfl
@[simp] theorem State.skipIf_waitReg (c : Bool) : (s.skipIf c).waitReg = s.waitReg := rfl
@[simp] theorem State.skipIf_fb (c : Bool) : (s.skipIf c).fb = s.fb := rfl
@[simp] theorem State.skipIf_changed (c : Bool) : (s.skipIf c).changed = s.changed := rfl
@[simp] theorem State.skipIf_mem (c : Bool) : (s.skipIf c).mem = s.mem := rfl
@[simp] theorem State.skipIf_halt (c : Bool) : (s.skipIf c).halt = s.halt := rfl
@[simp] theorem State.skipIf_cause (c : Bool) : (s.skipIf c).cause = s.cause := rfl
@[simp] theorem State.skipIf_frameNo (c : Bool) : (s.skipIf c).frameNo = s.frameNo := rfl
@[simp] theorem State.skipIf_drawNo (c : Bool) : (s.skipIf c).drawNo = s.drawNo := rfl
@[simp] theorem State.skipIf_reg (c : Bool) (r : Nibble) : (s.skipIf c).reg r = s.reg r := rfl

/-! ### raise -/

@[simp] theorem State.raise_v (f : Fault) : (s.raise f).v = s.v := rfl
@[simp] theorem State.raise_i (f : Fault) : (s.raise f).i = s.i := rfl
@[simp] theorem State.raise_pc (f : Fault) : (s.raise f).pc = s.pc := rfl
@[simp] theorem State.raise_stk (f : Fault) : (s.raise f).stk = s.stk := rfl
@[simp] theorem State.raise_dt (f : Fault) : (s.raise f).dt = s.dt := rfl
@[simp] theorem State.raise_st (f : Fault) : (s.raise f).st = s.st := rfl
@[simp] theorem State.raise_keys (f : Fault) : (s.raise f).keys = s.keys := rfl
@[simp] theorem State.raise_wait (f : Fault) : (s.raise f).wait = s.wait := rfl
@[simp] theorem State.raise_waitReg (f : Fault) : (s.raise f).waitReg = s.waitReg := rfl
@[simp] theorem State.raise_fb (f : Fault) : (s.raise f).fb = s.fb := rfl
@[simp] theorem State.raise_changed (f : Fault) : (s.raise f).changed = s.changed := rfl
@[simp] theorem State.raise_mem (f : Fault) : (s.raise f).mem = s.mem := rfl
@[simp] theorem State.raise_halt (f : Fault) : (s.raise f).halt = true := rfl
@[simp] theorem State.raise_cause (f : Fault) : (s.raise f).cause = some f := rfl
@[simp] theorem State.raise_frameNo (f : Fault) : (s.raise f).frameNo = s.frameNo := rfl
@[simp] theorem State.raise_drawNo (f : Fault) : (s.raise f).drawNo = s.drawNo := rfl
@[simp] theorem State.raise_reg (f : Fault) (r : Nibble) : (s.raise f).reg r = s.reg r := rfl

/-! ### writeFlagged -/

@[simp] theorem State.writeFlagged_v (x : Nibble) (r : Byte × Byte) : (s.writeFlagged x r).v = ((s.setReg x r.1).setReg vf r.2).v := rfl
@[simp] theorem State.writeFlagged_i (x : Nibble) (r : Byte × Byte) : (s.writeFlagged x r).i = s.i := rfl
@[simp] theorem State.writeFlagged_pc (x : Nibble) (r : Byte × Byte) : (s.writeFlagged x r).pc = s.pc := rfl
@[simp] theorem State.writeFlagged_stk (x : Nibble) (r : Byte × Byte) : (s.writeFlagged x r).stk = s.stk := rfl
@[simp] theorem State.writeFlagged_dt (x : Nibble) (r : Byte × Byte) : (s.writeFlagged x r).dt = s.dt := rfl
@[simp] theorem State.writeFlagged_st (x : Nibble) (r : Byte × Byte) : (s.writeFlagged x r).st = s.st := rfl
@[simp] theorem State.writeFlagged_keys (x : Nibble) (r : Byte × Byte) : (s.writeFlagged x r).keys = s.keys := rfl
@[simp] theorem State.writeFlagged_wait (x : Nibble) (r : Byte × Byte) : (s.writeFlagged x r).wait = s.wait := rfl
@[simp] theorem State.writeFlagged_waitReg (x : Nibble) (r : Byte × Byte) : (s.writeFlagged x r).waitReg = s.waitReg := rfl
@[simp] theorem State.writeFlagged_fb (x : Nibble) (r : Byte × Byte) : (s.writeFlagged x r).fb = s.fb := rfl
@[simp] theorem State.writeFlagged_changed (x : Nibble) (r : Byte × Byte) : (s.writeFlagged x r).changed = s.changed := rfl
@[simp] theorem State.writeFlagged_mem (x : Nibble) (r : Byte × Byte) : (s.writeFlagged x r).mem = s.mem := rfl
@[simp] theorem State.writeFlagged_halt (x : Nibble) (r : Byte × Byte) : (s.writeFlagged x r).halt = s.halt := rfl
@[simp] theorem State.writeFlagged_cause (x : Nibble) (r : Byte × Byte) : (s.writeFlagged x r).cause = s.cause := rfl
@[simp] theorem State.writeFlagged_frameNo (x : Nibble) (r : Byte × Byte) : (s.writeFlagged x r).frameNo = s.frameNo := rfl
@[simp] theorem State.writeFlagged_drawNo (x : Nibble) (r : Byte × Byte) : (s.writeFlagged x r).drawNo = s.drawNo := rfl

/-! ### tickTimers -/

@[simp] theorem State.tickTimers_v : s.tickTimers.v = s.v := rfl
@[simp] theorem State.tickTimers_i : s.tickTimers.i = s.i := rfl
@[simp] theorem State.tickTimers_pc : s.tickTimers.pc = s.pc := rfl
@[simp] theorem State.tickTimers_stk : s.tickTimers.stk = s.stk := rfl
@[simp] theorem State.tickTimers_dt : s.tickTimers.dt = countDown s.dt := rfl
@[simp] theorem State.tickTimers_st : s.tickTimers.st = countDown s.st := rfl
@[simp] theorem State.tickTimers_keys : s.tickTimers.keys = s.keys := rfl
@[simp] theorem State.tickTimers_wait : s.tickTimers.wait = s.wait := rfl
@[simp] theorem State.tickTimers_waitReg : s.tickTimers.waitReg = s.waitReg := rfl
@[simp] theorem State.tickTimers_fb : s.tickTimers.fb = s.fb := rfl
@[simp] theorem State.tickTimers_changed : s.tickTimers.changed = s.changed := rfl
@[simp] theorem State.tickTimers_mem : s.tickTimers.mem = s.mem := rfl
@[simp] theorem State.tickTimers_halt : s.tickTimers.halt = s.halt := rfl
@[simp] theorem State.tickTimers_cause : s.tickTimers.cause = s.cause := rfl
@[simp] theorem State.tickTimers_frameNo : s.tickTimers.frameNo = s.frameNo := rfl
@[simp] theorem State.tickTimers_drawNo : s.tickTimers.drawNo = s.drawNo := rfl
@[simp] theorem State.tickTimers_reg (r : Nibble) : s.tickTimers.reg r = s.reg r := rfl

/-! ### beginFrame -/

@[simp] theorem State.beginFrame_v (k : Keys) : (s.beginFrame k).v = s.v := rfl
@[simp] theorem State.beginFrame_i (k : Keys) : (s.beginFrame k).i = s.i := rfl
@[simp] theorem State.beginFrame_pc (k : Keys) : (s.beginFrame k).pc = s.pc := rfl
@[simp] theorem State.beginFrame_stk (k : Keys) : (s.beginFrame k).stk = s.stk := rfl
@[simp] theorem State.beginFrame_dt (k : Keys) : (s.beginFrame k).dt = s.dt := rfl
@[simp] theorem State.beginFrame_st (k : Keys) : (s.beginFrame k).st = s.st := rfl
@[simp] theorem State.beginFrame_keys (k : Keys) : (s.beginFrame k).keys = k := rfl
@[simp] theorem State.beginFrame_wait (k : Keys) : (s.beginFrame k).wait = s.wait := rfl
@[simp] theorem State.beginFrame_waitReg (k : Keys) : (s.beginFrame k).waitReg = s.waitReg := rfl
@[simp] theorem State.beginFrame_fb (k : Keys) : (s.beginFrame k).fb = s.fb := rfl
@[simp] theorem State.beginFrame_changed (k : Keys) : (s.beginFrame k).changed = false := rfl
@[simp] theorem State.beginFrame_mem (k : Keys) : (s.beginFrame k).mem = s.mem := rfl
@[simp] theorem State.beginFrame_halt (k : Keys) : (s.beginFrame k).halt = s.halt := rfl
@[simp] theorem State.beginFrame_cause (k : Keys) : (s.beginFrame k).cause = s.cause := rfl
@[simp] theorem State.beginFrame_frameNo (k : Keys) : (s.beginFrame k).frameNo = s.frameNo + 1 := rfl
@[simp] theorem State.beginFrame_drawNo (k : Keys) : (s.beginFrame k).drawNo = s.drawNo := rfl
@[simp] theorem State.beginFrame_reg (k : Keys) (r : Nibble) : (s.beginFrame k).reg r = s.reg r := rfl

/-! ### beforeCycle -/

@[simp] theorem State.beforeCycle_v (k : Keys) : (s.beforeCycle k).v = s.v := rfl
@[simp] theorem State.beforeCycle_i (k : Keys) : (s.beforeCycle k).i = s.i := rfl
@[simp] theorem State.beforeCycle_pc (k : Keys) : (s.beforeCycle k).pc = s.pc := rfl
@[simp] theorem State.beforeCycle_stk (k : Keys) : (s.beforeCycle k).stk = s.stk := rfl
@[simp] theorem State.beforeCycle_dt (k : Keys) : (s.beforeCycle k).dt = countDown s.dt := rfl
@[simp] theorem State.beforeCycle_st (k : Keys) : (s.beforeCycle k).st = countDown s.st := rfl
@[simp] theorem State.beforeCycle_keys (k : Keys) : (s.beforeCycle k).keys = k := rfl
@[simp] theorem State.beforeCycle_wait (k : Keys) : (s.beforeCycle k).wait = s.wait := rfl
@[simp] theorem State.beforeCycle_waitReg (k : Keys) : (s.beforeCycle k).waitReg = s.waitReg := rfl
@[simp] theorem State.beforeCycle_fb (k : Keys) : (s.beforeCycle k).fb = s.fb := rfl
@[simp] theorem State.beforeCycle_changed (k : Keys) : (s.beforeCycle k).changed = false := rfl
@[simp] theorem State.beforeCycle_mem (k : Keys) : (s.beforeCycle k).mem = s.mem := rfl
@[simp] theorem State.beforeCycle_halt (k : Keys) : (s.beforeCycle k).halt = s.halt := rfl
@[simp] theorem State.beforeCycle_cause (k : Keys) : (s.beforeCycle k).cause = s.cause := rfl
@[simp] theorem State.beforeCycle_frameNo (k : Keys) : (s.beforeCycle k).frameNo = s.frameNo + 1 := rfl
@[simp] theorem State.beforeCycle_drawNo (k : Keys) : (s.beforeCycle k).drawNo = s.drawNo := rfl
@[simp] theorem State.beforeCycle_reg (k : Keys) (r : Nibble) : (s.beforeCycle k).reg r = s.reg r := rfl

/-! ### load -/

@[simp] theorem State.load_v (rom : List Byte) : (s.load rom).v = s.v := rfl
@[simp] theorem State.load_i (rom : List Byte) : (s.load rom).i = s.i := rfl
@[simp] theorem State.load_pc (rom : List Byte) : (s.load rom).pc = s.pc := rfl
@[simp] theorem State.load_stk (rom : List Byte) : (s.load rom).stk = s.stk := rfl
@[simp] theorem State.load_dt (rom : List Byte) : (s.load rom).dt = s.dt := rfl
@[simp] theorem State.load_st (rom : List Byte) : (s.load rom).st = s.st := rfl
@[simp] theorem State.load_keys (rom : List Byte) : (s.load rom).keys = s.keys := rfl
@[simp] theorem State.load_wait (rom : List Byte) : (s.load rom).wait = s.wait := rfl
@[simp] theorem State.load_waitReg (rom : List Byte) : (s.load rom).waitReg = s.waitReg := rfl
@[simp] theorem State.load_fb (rom : List Byte) : (s.load rom).fb = s.fb := rfl
@[simp] theorem State.load_changed (rom : List Byte) : (s.load rom).changed = s.changed := rfl
@[simp] theorem State.load_mem (rom : List Byte) : (s.load rom).mem = s.mem.writeBytes 0x200 (rom.take 3584) := rfl
@[simp] theorem State.load_halt (rom : List Byte) : (s.load rom).halt = s.halt := rfl
@[simp] theorem State.load_cause (rom : List Byte) : (s.load rom).cause = s.cause := rfl
@[simp] theorem State.load_frameNo (rom : List Byte) : (s.load rom).frameNo = s.frameNo := rfl
@[simp] theorem State.load_drawNo (rom : List Byte) : (s.load rom).drawNo = s.drawNo := rfl
@[simp] theorem State.load_reg (rom : List Byte) (r : Nibble) : (s.load rom).reg r = s.reg r := rfl

end Sys2Proof.Machine
end

