-- ==== Sys2Proof/Laws/Ops.lean ====
section
/-! SUPPORT. One lemma for each shared operation, saying everything it can do; proofs cite these and do not unfold the operation. -/

namespace Sys2Proof.Machine

variable (s : State)

/-! ### Registers -/

/-- A write of V[x] reads back as written, and every other register as before. -/
@[simp] theorem State.reg_setReg (x r : Nibble) (b : Byte) : (s.setReg x b).reg r = if r = x then b else s.reg r := by
  simp only [State.reg, State.setReg]
  rw [Vector.getElem_set]
  simp only [BitVec.toNat_inj, eq_comm (a := x)]

@[simp] theorem State.reg_setRegs (v : Vector Byte 16) (r : Nibble) : (s.setRegs v).reg r = v[r.toNat]'r.isLt := rfl

/-- Result first, flag last: VF holds the flag whatever x is (41_alu.md R152 (d)). -/
@[simp] theorem State.reg_writeFlagged (x r : Nibble) (p : Byte × Byte) :
    (s.writeFlagged x p).reg r = if r = vf then p.2 else if r = x then p.1 else s.reg r := by
  simp [State.writeFlagged]

/-- Registers are equal when they read the same. -/
theorem State.v_ext {t : State} (h : ∀ r : Nibble, t.reg r = s.reg r) : t.v = s.v := by
  refine Vector.ext fun k hk => ?_
  have := h (BitVec.ofNat 4 k)
  simpa [State.reg, Nat.mod_eq_of_lt hk] using this

/-- What the block load writes to each register (42_index_memory.md R175). -/
@[simp] theorem State.loadedBlock_get (x : Nibble) (k : Nat) (hk : k < 16) :
    (s.loadedBlock x)[k] = if k ≤ x.toNat then s.mem.read (s.ea k) else s.v[k] := by
  simp [State.loadedBlock]

@[simp] theorem State.regBlock_length (x : Nibble) : (s.regBlock x).length = x.toNat + 1 := by
  have := x.isLt
  simp [State.regBlock]; omega

/-- The k-th byte a block store writes is V[k] (R174). -/
theorem State.regBlock_get (x : Nibble) (k : Nat) (hk : k < (s.regBlock x).length) :
    (s.regBlock x)[k] = s.v[k]'(by have := x.isLt; simp at hk; omega) := by
  simp [State.regBlock]

@[simp] theorem bcdDigits_length (b : Byte) : (bcdDigits b).length = 3 := rfl

/-! ### Checks and faults -/

/-- A guarded effect always answers a next state: the effect, or the fault taken from the state before (R253). -/
theorem State.guard_eq (ok : Bool) (f : Fault) (t : State) :
    s.guard ok f t = .next (if ok then t else s.raise f) := by
  cases ok <;> rfl

@[simp] theorem State.guard_true (f : Fault) (t : State) : s.guard true f t = .next t := rfl
@[simp] theorem State.guard_false (f : Fault) (t : State) : s.guard false f t = .next (s.raise f) := rfl

@[simp] theorem inMemory_iff (a : Nat) : inMemory a = true ↔ a ≤ 0xFFF := by simp [inMemory]

/-- A block of `count` bytes at I passes its check exactly when it is empty or ends within memory. -/
@[simp] theorem State.blockOk_iff (count : Nat) : s.blockOk count = true ↔ count = 0 ∨ s.i.toNat + count ≤ 0x1000 := by
  simp only [State.blockOk, Bool.or_eq_true, beq_iff_eq, inMemory_iff, State.ea]
  omega

@[simp] theorem keyIndexOk_iff (b : Byte) : keyIndexOk b = true ↔ b.toNat ≤ 15 := by simp [keyIndexOk]

@[simp] theorem State.keyDown_of_le {b : Byte} (h : b.toNat < 16) : s.keyDown b = s.keys[b.toNat] := by
  simp [State.keyDown, h]

/-! ### Fetch -/

/-- The fetch is the big-endian word at PC where two bytes can be read, and nothing otherwise (R63). -/
theorem State.fetch_eq : s.fetch =
    if s.pc.toNat + 1 ≤ 0xFFF then some (s.mem.read s.pc.toNat ++ s.mem.read (s.pc.toNat + 1)) else none := by
  simp only [State.fetch, inMemory_iff]

/-! ### Framebuffer -/

/-- A pixel written reads back as written, and every other pixel as before. -/
@[simp] theorem Framebuffer.pixel_setPixel (f : Framebuffer) (row row' : Fin 32) (col col' : Fin 64) (b : Bool) :
    (f.setPixel row col b).pixel row' col' = if row' = row ∧ col' = col then b else f.pixel row' col' := by
  simp only [Framebuffer.pixel, Framebuffer.setPixel]
  by_cases hr : row' = row
  · subst hr
    by_cases hc : col' = col
    · subst hc; simp
    · simp [hc, Fin.val_inj, Ne.symm hc]
  · simp [hr, Fin.val_inj, Ne.symm hr]

@[simp] theorem Framebuffer.pixel_blank (row : Fin 32) (col : Fin 64) : Framebuffer.blank.pixel row col = false := by
  simp [Framebuffer.pixel, Framebuffer.blank]

/-- Framebuffers are equal when their pixels are. -/
theorem Framebuffer.ext_pixel {f g : Framebuffer} (h : ∀ row col, f.pixel row col = g.pixel row col) : f = g := by
  refine Vector.ext fun r hr => Vector.ext fun c hc => ?_
  exact h ⟨r, hr⟩ ⟨c, hc⟩

@[simp] theorem spriteCol_val (vx : Byte) (k : Nat) : (spriteCol vx k).val = (vx.toNat + k) % 64 := rfl
@[simp] theorem spriteRow_val (vy : Byte) (r : Nat) : (spriteRow vy r).val = (vy.toNat + r) % 32 := rfl

/-! ### Timers and keys -/

/-- A countdown is a subtraction with floor 0 (R235). -/
@[simp] theorem countDown_toNat (b : Byte) : (countDown b).toNat = b.toNat - 1 := by
  by_cases h : b = 0
  · simp [countDown, h]
  · have hb : 1 ≤ b.toNat := by
      have : b.toNat ≠ 0 := fun h0 => h (BitVec.eq_of_toNat_eq h0)
      omega
    have hlt := b.isLt
    rw [countDown, if_neg h, BitVec.toNat_sub]
    simp only [show (1 : Byte).toNat = 1 from rfl]
    omega

/-- No key is found exactly when none is pressed (R234). -/
theorem leastPressed_eq_none (keys : Keys) : leastPressed keys = none ↔ ∀ k : Fin 16, keys[k] = false := by
  simp [leastPressed]

/-- The key found is pressed, and none below it is (R234: "scan keys 0..15 in ascending order"). -/
theorem leastPressed_eq_some (keys : Keys) (k : Fin 16) :
    leastPressed keys = some k ↔ keys[k] = true ∧ ∀ j : Fin 16, j < k → keys[j] = false := by
  have found : ∀ k, leastPressed keys = some k → keys[k] = true ∧ ∀ j : Fin 16, j < k → keys[j] = false := by
    intro k h
    obtain ⟨hk, as, bs, hl, has⟩ := List.find?_eq_some_iff_append.mp h
    refine ⟨hk, fun j hj => ?_⟩
    have hs : (as ++ k :: bs).Pairwise (· < ·) := hl ▸ List.pairwise_lt_finRange 16
    have hm : j ∈ as ++ k :: bs := hl ▸ List.mem_finRange j
    rcases List.mem_append.mp hm with hm | hm
    · simpa using has j hm
    · rcases List.mem_cons.mp hm with rfl | hm
      · exact absurd hj (lt_irrefl _)
      · exact absurd ((List.pairwise_cons.mp (List.pairwise_append.mp hs).2.1).1 j hm) (not_lt.mpr hj.le)
  refine ⟨found k, fun ⟨hk, hlt⟩ => ?_⟩
  cases h : leastPressed keys with
  | none => rw [leastPressed_eq_none] at h; simp [h k] at hk
  | some m =>
    obtain ⟨hm, hmlt⟩ := found m h
    rcases lt_trichotomy m k with hc | hc | hc
    · simp [hlt m hc] at hm
    · rw [hc]
    · simp [hmlt k hc] at hk

/-! ### The arithmetic of the flags -/

@[simp] theorem addWithCarry_fst (a b : Byte) : (addWithCarry a b).1 = a + b := by
  apply BitVec.eq_of_toNat_eq; simp [addWithCarry]

@[simp] theorem subNotBorrow_fst (a b : Byte) : (subNotBorrow a b).1 = a - b := by
  apply BitVec.eq_of_toNat_eq; simp only [subNotBorrow, BitVec.toNat_ofNat, BitVec.toNat_sub]; congr 1; omega

theorem addWithCarry_snd (a b : Byte) : (addWithCarry a b).2 = flagByte (decide (256 ≤ a.toNat + b.toNat)) := rfl
theorem subNotBorrow_snd (a b : Byte) : (subNotBorrow a b).2 = flagByte (decide (b.toNat ≤ a.toNat)) := rfl

@[simp] theorem flagByte_true : flagByte true = 1 := rfl
@[simp] theorem flagByte_false : flagByte false = 0 := rfl

/-- A flag is 0x00 or 0x01 in all 8 bits (R152 (e)). -/
theorem flagByte_cases (b : Bool) : flagByte b = 0 ∨ flagByte b = 1 := by cases b <;> simp

@[simp] theorem zext16_toNat (nnn : Addr) : (zext16 nnn).toNat = nnn.toNat := by
  have := nnn.isLt
  simp [zext16]; omega

end Sys2Proof.Machine
end

