-- ==== Sys2Proof/Laws/Display.lean ====
section
/-! SUPPORT. What the raster engine does (43_display.md R191, R192): one lemma for a sprite row and one for a whole sprite. -/

namespace Sys2Proof.Machine

/-- Bit k of a row byte b drawn at vx is 1 and lies in column col, for some k below K. -/
def RowHits (b vx : Byte) (K : Nat) (col : Fin 64) : Prop :=
  ∃ k < K, col.val = (vx.toNat + k) % 64 ∧ b.getLsbD (7 - k) = true

/-- A sprite of n rows at base drawn at vx, vy has a 1 in the cell (row, col). -/
def SpriteHits (m : Memory) (base : Nat) (vx vy : Byte) (n : Nat) (row : Fin 32) (col : Fin 64) : Prop :=
  ∃ r < n, row.val = (vy.toNat + r) % 32 ∧ RowHits (m.read (base + r)) vx 8 col

/-- One bit more: the hits of the first K + 1 bits. -/
theorem rowHits_succ (b vx : Byte) (K : Nat) (col : Fin 64) :
    RowHits b vx (K + 1) col ↔ RowHits b vx K col ∨ (col = spriteCol vx K ∧ spriteBit b K = true) := by
  constructor
  · rintro ⟨k, hk, hc, hb⟩
    by_cases h : k = K
    · subst h; exact .inr ⟨Fin.ext hc, hb⟩
    · exact .inl ⟨k, by omega, hc, hb⟩
  · rintro (⟨k, hk, h⟩ | ⟨rfl, hb⟩)
    · exact ⟨k, by omega, h⟩
    · exact ⟨K, by omega, rfl, hb⟩

/-- One row more. -/
theorem spriteHits_succ (m : Memory) (base : Nat) (vx vy : Byte) (n : Nat) (row : Fin 32) (col : Fin 64) :
    SpriteHits m base vx vy (n + 1) row col ↔
      SpriteHits m base vx vy n row col ∨ (row = spriteRow vy n ∧ RowHits (m.read (base + n)) vx 8 col) := by
  constructor
  · rintro ⟨r, hr, hrow, h⟩
    by_cases e : r = n
    · subst e; exact .inr ⟨Fin.ext hrow, h⟩
    · exact .inl ⟨r, by omega, hrow, h⟩
  · rintro (⟨r, hr, h⟩ | ⟨rfl, h⟩)
    · exact ⟨r, by omega, h⟩
    · exact ⟨n, by omega, rfl, h⟩

/-- The columns of one row are distinct: bit K meets no column of an earlier bit (R191 (d)). -/
theorem not_rowHits_spriteCol (b vx : Byte) {K : Nat} (hK : K < 8) : ¬ RowHits b vx K (spriteCol vx K) := by
  rintro ⟨k, hk, hc, -⟩
  simp only [spriteCol_val] at hc
  omega

/-- The rows of one sprite are distinct (R191 (d)). -/
theorem not_spriteHits_spriteRow (m : Memory) (base : Nat) (vx vy : Byte) {n : Nat} (hn : n < 32) (col : Fin 64) :
    ¬ SpriteHits m base vx vy n (spriteRow vy n) col := by
  rintro ⟨r, hr, hrow, -⟩
  simp only [spriteRow_val] at hrow
  omega

/-- Drawing the first K bits of a row inverts the cells they hit, keeps the others, and collides with a hit cell that was 1. -/
theorem drawBits_spec (b vx : Byte) (row : Fin 32) (d : Framebuffer × Bool) (K : Nat) (hK : K ≤ 8) :
    let e := (List.range K).foldl (fun d k => drawPixel row (spriteCol vx k) (spriteBit b k) d) d
    (∀ r c, r = row ∧ RowHits b vx K c → e.1.pixel r c = !d.1.pixel r c) ∧
    (∀ r c, ¬ (r = row ∧ RowHits b vx K c) → e.1.pixel r c = d.1.pixel r c) ∧
    (e.2 = true ↔ d.2 = true ∨ ∃ c, d.1.pixel row c = true ∧ RowHits b vx K c) := by
  induction K with
  | zero => simp [RowHits]
  | succ K ih =>
    obtain ⟨hit, miss, coll⟩ := ih (by omega)
    rw [List.range_succ, List.foldl_append]
    simp only [List.foldl_cons, List.foldl_nil]
    generalize List.foldl _ d (List.range K) = e at hit miss coll
    have fresh := not_rowHits_spriteCol b vx (show K < 8 by omega)
    have old : e.1.pixel row (spriteCol vx K) = d.1.pixel row (spriteCol vx K) := miss _ _ fun h => fresh h.2
    simp only [drawPixel, Framebuffer.pixel_setPixel, old, rowHits_succ]
    refine ⟨?_, ?_, ?_⟩
    · rintro r c ⟨rfl, h | ⟨rfl, hb⟩⟩
      · rw [if_neg (by rintro ⟨-, rfl⟩; exact fresh h), hit _ _ ⟨rfl, h⟩]
      · simp [hb]
    · intro r c h
      split
      · rename_i hc
        obtain ⟨rfl, rfl⟩ := hc
        have : spriteBit b K = false := by by_contra hb; exact h ⟨rfl, .inr ⟨rfl, by simpa using hb⟩⟩
        simp [this]
      · exact miss r c fun q => h ⟨q.1, .inl q.2⟩
    · rw [Bool.or_eq_true, Bool.and_eq_true, coll]
      constructor
      · rintro ((h | ⟨c, hp, h⟩) | ⟨hb, hp⟩)
        · exact .inl h
        · exact .inr ⟨c, hp, .inl h⟩
        · exact .inr ⟨_, hp, .inr ⟨rfl, hb⟩⟩
      · rintro (h | ⟨c, hp, h | ⟨rfl, hb⟩⟩)
        · exact .inl (.inl h)
        · exact .inl (.inr ⟨c, hp, h⟩)
        · exact .inr ⟨hb, hp⟩

/-- Drawing a sprite of at most 15 rows inverts the cells it hits, keeps the others, and collides with a hit cell that was 1. -/
theorem drawSprite_spec (m : Memory) (base : Nat) (vx vy : Byte) (d : Framebuffer × Bool) (n : Nat) (hn : n ≤ 15) :
    (∀ r c, SpriteHits m base vx vy n r c → (drawSprite m base vx vy n d).1.pixel r c = !d.1.pixel r c) ∧
    (∀ r c, ¬ SpriteHits m base vx vy n r c → (drawSprite m base vx vy n d).1.pixel r c = d.1.pixel r c) ∧
    ((drawSprite m base vx vy n d).2 = true ↔ d.2 = true ∨ ∃ r c, d.1.pixel r c = true ∧ SpriteHits m base vx vy n r c) := by
  unfold drawSprite
  induction n with
  | zero => simp [SpriteHits]
  | succ n ih =>
    obtain ⟨hit, miss, coll⟩ := ih (by omega)
    rw [List.range_succ, List.foldl_append]
    simp only [List.foldl_cons, List.foldl_nil, spriteHits_succ]
    generalize List.foldl _ d (List.range n) = e at hit miss coll
    have fresh := not_spriteHits_spriteRow m base vx vy (show n < 32 by omega)
    have old : ∀ c, e.1.pixel (spriteRow vy n) c = d.1.pixel (spriteRow vy n) c := fun c => miss _ _ (fresh c)
    obtain ⟨rowHit, rowMiss, rowColl⟩ := drawBits_spec (m.read (base + n)) vx (spriteRow vy n) e 8 le_rfl
    simp only [drawRow]
    refine ⟨?_, ?_, ?_⟩
    · rintro r c (h | ⟨rfl, h⟩)
      · rw [rowMiss r c (by rintro ⟨rfl, -⟩; exact fresh c h), hit r c h]
      · rw [rowHit _ c ⟨rfl, h⟩, old]
    · intro r c h
      rw [rowMiss r c fun q => h (.inr q), miss r c fun q => h (.inl q)]
    · rw [rowColl, coll]
      simp only [old]
      constructor
      · rintro ((h | ⟨r, c, hp, h⟩) | ⟨c, hp, h⟩)
        · exact .inl h
        · exact .inr ⟨r, c, hp, .inl h⟩
        · exact .inr ⟨_, c, hp, .inr ⟨rfl, h⟩⟩
      · rintro (h | ⟨r, c, hp, h | ⟨rfl, h⟩⟩)
        · exact .inl (.inl h)
        · exact .inl (.inr ⟨r, c, hp, h⟩)
        · exact .inr ⟨c, hp, h⟩

end Sys2Proof.Machine
end

