-- ==== Sys2Proof/Laws/Rows.lean ====
section
/-! SUPPORT. The masks of R95 on the words of each format: which nibbles a mask keeps. -/

namespace Sys2Proof

/-- AND works on the two halves of an append apart. -/
theorem append_and_append {m n : Nat} (a c : BitVec m) (b d : BitVec n) : (a ++ b) &&& (c ++ d) = (a &&& c) ++ (b &&& d) := by
  ext k hk
  simp only [BitVec.getElem_and, BitVec.getElem_append]
  split <;> simp

theorem and_allOnes (d : Nibble) : d &&& 0xF#4 = d := BitVec.and_allOnes

theorem and_allOnes8 (b : Byte) : b &&& 0xFF#8 = b := BitVec.and_allOnes

/-- The mask 0xF000 keeps the major opcode (format NNN). -/
@[simp] theorem wordNNN_and (d : Nibble) (nnn : Addr) : wordNNN d nnn &&& 0xF000#16 = wordNNN d 0 :=
  (append_and_append d 0xF#4 nnn 0#12).trans (by simp only [and_allOnes, BitVec.and_zero]; rfl)

/-- The mask 0xF000 keeps the major opcode (format XNN). -/
@[simp] theorem wordXNN_and (d x : Nibble) (nn : Byte) : wordXNN d x nn &&& 0xF000#16 = wordXNN d 0 0 :=
  (append_and_append (d ++ x) (0xF#4 ++ 0#4) nn 0#8).trans (by simp only [append_and_append, and_allOnes, BitVec.and_zero]; rfl)

/-- The mask 0xF0FF keeps the major opcode and the low byte (format X). -/
@[simp] theorem wordXNN_and_low (d x : Nibble) (nn : Byte) : wordXNN d x nn &&& 0xF0FF#16 = wordXNN d 0 nn :=
  (append_and_append (d ++ x) (0xF#4 ++ 0#4) nn 0xFF#8).trans (by simp only [append_and_append, and_allOnes, and_allOnes8, BitVec.and_zero]; rfl)

/-- The mask 0xF000 keeps the major opcode (format XYN). -/
@[simp] theorem wordXYN_and (d x y n : Nibble) : wordXYN d x y n &&& 0xF000#16 = wordXYN d 0 0 0 :=
  (append_and_append (d ++ x ++ y) (0xF#4 ++ 0#4 ++ 0#4) n 0#4).trans (by simp only [append_and_append, and_allOnes, BitVec.and_zero]; rfl)

/-- The mask 0xF00F keeps the major opcode and the low nibble (format XY). -/
@[simp] theorem wordXYN_and_low (d x y n : Nibble) : wordXYN d x y n &&& 0xF00F#16 = wordXYN d 0 0 n :=
  (append_and_append (d ++ x ++ y) (0xF#4 ++ 0#4 ++ 0#4) n 0xF#4).trans (by simp only [append_and_append, and_allOnes, BitVec.and_zero]; rfl)

/-- The mask 0xF0FF keeps the major opcode and the low byte, nibble by nibble. -/
theorem wordXYN_and_byte (d x y n : Nibble) : wordXYN d x y n &&& 0xF0FF#16 = wordXYN d 0 y n :=
  (append_and_append (d ++ x ++ y) (0xF#4 ++ 0#4 ++ 0xF#4) n 0xF#4).trans (by simp only [append_and_append, and_allOnes, BitVec.and_zero]; rfl)

/-- Words of one format are equal exactly when their nibbles are. -/
theorem wordXYN_inj (d x y n d' x' y' n' : Nibble) :
    wordXYN d x y n = wordXYN d' x' y' n' ↔ d = d' ∧ x = x' ∧ y = y' ∧ n = n' := by
  constructor
  · intro h
    have h := congrArg BitVec.toNat h
    simp only [wordXYN_toNat] at h
    refine ⟨?_, ?_, ?_, ?_⟩ <;> apply BitVec.eq_of_toNat_eq <;> omega
  · rintro ⟨rfl, rfl, rfl, rfl⟩; rfl

theorem wordXNN_inj (d x d' x' : Nibble) (nn nn' : Byte) :
    wordXNN d x nn = wordXNN d' x' nn' ↔ d = d' ∧ x = x' ∧ nn = nn' := by
  constructor
  · intro h
    have h := congrArg BitVec.toNat h
    simp only [wordXNN_toNat] at h
    refine ⟨?_, ?_, ?_⟩ <;> apply BitVec.eq_of_toNat_eq <;> omega
  · rintro ⟨rfl, rfl, rfl⟩; rfl

/-! ### A row's match as a condition on fields, the row's other nibbles being 0 -/

theorem and_F000_eq (op b : Word) (hb : fieldX b = 0 ∧ fieldY b = 0 ∧ fieldN b = 0) :
    op &&& 0xF000#16 = b ↔ fieldD3 op = fieldD3 b := by
  conv_lhs => rw [← wordXYN_fields op, wordXYN_and, ← wordXYN_fields b, wordXYN_inj]
  simp [hb]

theorem and_F00F_eq (op b : Word) (hb : fieldX b = 0 ∧ fieldY b = 0) :
    op &&& 0xF00F#16 = b ↔ fieldD3 op = fieldD3 b ∧ fieldN op = fieldN b := by
  conv_lhs => rw [← wordXYN_fields op, wordXYN_and_low, ← wordXYN_fields b, wordXYN_inj]
  simp [hb]

theorem and_F0FF_eq (op b : Word) (hb : fieldX b = 0) :
    op &&& 0xF0FF#16 = b ↔ fieldD3 op = fieldD3 b ∧ fieldNN op = fieldNN b := by
  conv_lhs => rw [← wordXNN_fields op, wordXNN_and_low, ← wordXNN_fields b, wordXNN_inj]
  simp [hb]

theorem and_FFFF_eq (op b : Word) : op &&& 0xFFFF#16 = b ↔ op = b := by
  rw [show op &&& 0xFFFF#16 = op from BitVec.and_allOnes]

end Sys2Proof
end

