-- ==== Sys2Proof/Laws/PerInstr.lean ====
section
/-! SUPPORT. One lemma per instruction: its encoding matches its row of R95, and the row reads the instruction back from it. -/

namespace Sys2Proof.Laws.RowMatch

/-- Row number k of R95 (CLS and RET first) matches the instruction's word, and builds the instruction from it. -/
def Holds (k : Nat) (i : Instr) : Prop :=
  ∃ row, opcodeRows[k]? = some row ∧ encode i &&& row.mask = row.bits ∧ row.build (encode i) = i

/-- The instruction's row of the table stands for it. -/
def Statement : Instr → Prop
  | .cls => Holds 0 (.cls)
  | .ret => Holds 1 (.ret)
  | .sys nnn => Holds 2 (.sys nnn)
  | .jp nnn => Holds 3 (.jp nnn)
  | .call nnn => Holds 4 (.call nnn)
  | .seImm x nn => Holds 5 (.seImm x nn)
  | .sneImm x nn => Holds 6 (.sneImm x nn)
  | .seReg x y => Holds 7 (.seReg x y)
  | .ldImm x nn => Holds 8 (.ldImm x nn)
  | .addImm x nn => Holds 9 (.addImm x nn)
  | .ldReg x y => Holds 10 (.ldReg x y)
  | .orReg x y => Holds 11 (.orReg x y)
  | .andReg x y => Holds 12 (.andReg x y)
  | .xorReg x y => Holds 13 (.xorReg x y)
  | .addReg x y => Holds 14 (.addReg x y)
  | .subReg x y => Holds 15 (.subReg x y)
  | .shr x y => Holds 16 (.shr x y)
  | .subnReg x y => Holds 17 (.subnReg x y)
  | .shl x y => Holds 18 (.shl x y)
  | .sneReg x y => Holds 19 (.sneReg x y)
  | .ldI nnn => Holds 20 (.ldI nnn)
  | .jpV0 nnn => Holds 21 (.jpV0 nnn)
  | .rnd x nn => Holds 22 (.rnd x nn)
  | .drw x y n => Holds 23 (.drw x y n)
  | .skp x => Holds 24 (.skp x)
  | .sknp x => Holds 25 (.sknp x)
  | .ldVxDt x => Holds 26 (.ldVxDt x)
  | .ldVxK x => Holds 27 (.ldVxK x)
  | .ldDtVx x => Holds 28 (.ldDtVx x)
  | .ldStVx x => Holds 29 (.ldStVx x)
  | .addIVx x => Holds 30 (.addIVx x)
  | .ldFVx x => Holds 31 (.ldFVx x)
  | .ldBVx x => Holds 32 (.ldBVx x)
  | .storeRegs x => Holds 33 (.storeRegs x)
  | .loadRegs x => Holds 34 (.loadRegs x)

theorem cls : Statement .cls :=
  ⟨_, rfl, rfl, rfl⟩

theorem ret : Statement .ret :=
  ⟨_, rfl, rfl, rfl⟩

theorem sys (nnn : Addr) : Statement (.sys nnn) :=
  ⟨_, rfl, (wordNNN_and _ _).trans rfl, by simp [encode]⟩

theorem jp (nnn : Addr) : Statement (.jp nnn) :=
  ⟨_, rfl, (wordNNN_and _ _).trans rfl, by simp [encode]⟩

theorem call (nnn : Addr) : Statement (.call nnn) :=
  ⟨_, rfl, (wordNNN_and _ _).trans rfl, by simp [encode]⟩

theorem seImm (x : Nibble) (nn : Byte) : Statement (.seImm x nn) :=
  ⟨_, rfl, (wordXNN_and _ _ _).trans rfl, by simp [encode]⟩

theorem sneImm (x : Nibble) (nn : Byte) : Statement (.sneImm x nn) :=
  ⟨_, rfl, (wordXNN_and _ _ _).trans rfl, by simp [encode]⟩

theorem seReg (x y : Nibble) : Statement (.seReg x y) :=
  ⟨_, rfl, (wordXYN_and_low _ _ _ _).trans rfl, by simp [encode]⟩

theorem ldImm (x : Nibble) (nn : Byte) : Statement (.ldImm x nn) :=
  ⟨_, rfl, (wordXNN_and _ _ _).trans rfl, by simp [encode]⟩

theorem addImm (x : Nibble) (nn : Byte) : Statement (.addImm x nn) :=
  ⟨_, rfl, (wordXNN_and _ _ _).trans rfl, by simp [encode]⟩

theorem ldReg (x y : Nibble) : Statement (.ldReg x y) :=
  ⟨_, rfl, (wordXYN_and_low _ _ _ _).trans rfl, by simp [encode]⟩

theorem orReg (x y : Nibble) : Statement (.orReg x y) :=
  ⟨_, rfl, (wordXYN_and_low _ _ _ _).trans rfl, by simp [encode]⟩

theorem andReg (x y : Nibble) : Statement (.andReg x y) :=
  ⟨_, rfl, (wordXYN_and_low _ _ _ _).trans rfl, by simp [encode]⟩

theorem xorReg (x y : Nibble) : Statement (.xorReg x y) :=
  ⟨_, rfl, (wordXYN_and_low _ _ _ _).trans rfl, by simp [encode]⟩

theorem addReg (x y : Nibble) : Statement (.addReg x y) :=
  ⟨_, rfl, (wordXYN_and_low _ _ _ _).trans rfl, by simp [encode]⟩

theorem subReg (x y : Nibble) : Statement (.subReg x y) :=
  ⟨_, rfl, (wordXYN_and_low _ _ _ _).trans rfl, by simp [encode]⟩

theorem shr (x y : Nibble) : Statement (.shr x y) :=
  ⟨_, rfl, (wordXYN_and_low _ _ _ _).trans rfl, by simp [encode]⟩

theorem subnReg (x y : Nibble) : Statement (.subnReg x y) :=
  ⟨_, rfl, (wordXYN_and_low _ _ _ _).trans rfl, by simp [encode]⟩

theorem shl (x y : Nibble) : Statement (.shl x y) :=
  ⟨_, rfl, (wordXYN_and_low _ _ _ _).trans rfl, by simp [encode]⟩

theorem sneReg (x y : Nibble) : Statement (.sneReg x y) :=
  ⟨_, rfl, (wordXYN_and_low _ _ _ _).trans rfl, by simp [encode]⟩

theorem ldI (nnn : Addr) : Statement (.ldI nnn) :=
  ⟨_, rfl, (wordNNN_and _ _).trans rfl, by simp [encode]⟩

theorem jpV0 (nnn : Addr) : Statement (.jpV0 nnn) :=
  ⟨_, rfl, (wordNNN_and _ _).trans rfl, by simp [encode]⟩

theorem rnd (x : Nibble) (nn : Byte) : Statement (.rnd x nn) :=
  ⟨_, rfl, (wordXNN_and _ _ _).trans rfl, by simp [encode]⟩

theorem drw (x y n : Nibble) : Statement (.drw x y n) :=
  ⟨_, rfl, (wordXYN_and _ _ _ _).trans rfl, by simp [encode]⟩

theorem skp (x : Nibble) : Statement (.skp x) :=
  ⟨_, rfl, (wordXNN_and_low _ _ _).trans rfl, by simp [encode]⟩

theorem sknp (x : Nibble) : Statement (.sknp x) :=
  ⟨_, rfl, (wordXNN_and_low _ _ _).trans rfl, by simp [encode]⟩

theorem ldVxDt (x : Nibble) : Statement (.ldVxDt x) :=
  ⟨_, rfl, (wordXNN_and_low _ _ _).trans rfl, by simp [encode]⟩

theorem ldVxK (x : Nibble) : Statement (.ldVxK x) :=
  ⟨_, rfl, (wordXNN_and_low _ _ _).trans rfl, by simp [encode]⟩

theorem ldDtVx (x : Nibble) : Statement (.ldDtVx x) :=
  ⟨_, rfl, (wordXNN_and_low _ _ _).trans rfl, by simp [encode]⟩

theorem ldStVx (x : Nibble) : Statement (.ldStVx x) :=
  ⟨_, rfl, (wordXNN_and_low _ _ _).trans rfl, by simp [encode]⟩

theorem addIVx (x : Nibble) : Statement (.addIVx x) :=
  ⟨_, rfl, (wordXNN_and_low _ _ _).trans rfl, by simp [encode]⟩

theorem ldFVx (x : Nibble) : Statement (.ldFVx x) :=
  ⟨_, rfl, (wordXNN_and_low _ _ _).trans rfl, by simp [encode]⟩

theorem ldBVx (x : Nibble) : Statement (.ldBVx x) :=
  ⟨_, rfl, (wordXNN_and_low _ _ _).trans rfl, by simp [encode]⟩

theorem storeRegs (x : Nibble) : Statement (.storeRegs x) :=
  ⟨_, rfl, (wordXNN_and_low _ _ _).trans rfl, by simp [encode]⟩

theorem loadRegs (x : Nibble) : Statement (.loadRegs x) :=
  ⟨_, rfl, (wordXNN_and_low _ _ _).trans rfl, by simp [encode]⟩

end Sys2Proof.Laws.RowMatch
end

