-- ==== Sys2Proof/Laws/Step.lean ====
section
/-! SUPPORT. What a frame step and a cycle can do, said once: the three kinds of frame step (45_frame_sequencer.md R230), and the three
outcomes of a cycle (R237). -/

namespace Sys2Proof.Machine

variable (s : State) (k : Keys)

/-! ### The frame step -/

theorem frameStep_halted (h : s.halt = true) : frameStep k s = .next s := by
  simp [frameStep, h]

theorem frameStep_waiting (h : s.halt = false) (hw : s.wait = true) :
    frameStep k s = .next (s.beginFrame k).serveKeyWait := by
  simp [frameStep, h, hw]

theorem frameStep_running (h : s.running) : frameStep k s = cycle (s.beforeCycle k) := by
  simp [frameStep, h.1, h.2]

/-- Serving a key-wait with a pressed key, least first (R234). -/
theorem State.serveKeyWait_some {j : Fin 16} (h : leastPressed s.keys = some j) :
    s.serveKeyWait = (s.setWait false).setReg s.waitReg (BitVec.ofNat 8 j.val) := by
  simp [State.serveKeyWait, h]

theorem State.serveKeyWait_none (h : leastPressed s.keys = none) : s.serveKeyWait = s := by
  simp [State.serveKeyWait, h]

/-! ### The cycle -/

/-- Steps 1 and 2 and the countdown change nothing the fetch reads. -/
@[simp] theorem State.fetch_beforeCycle : (s.beforeCycle k).fetch = s.fetch := rfl

@[simp] theorem State.nextInstr_beforeCycle : (s.beforeCycle k).nextInstr = s.nextInstr := rfl

theorem State.nextInstr_eq_some {i : Instr} :
    s.nextInstr = some i ↔ ∃ op, s.fetch = some op ∧ decodeWord op = .ok i := by
  simp only [State.nextInstr]
  split
  · simp [*]
  · split <;> simp [*]

/-- A recognised word is executed, once (R237 c, d). -/
theorem cycle_of_some {i : Instr} (h : s.nextInstr = some i) : cycle s = exec i s := by
  obtain ⟨op, hf, hd⟩ := s.nextInstr_eq_some.mp h
  simp [cycle, hf, hd]

/-- Without one, the cycle either faults in the fetch (R63) or leaves the state as it is (R131). -/
theorem cycle_of_none (h : s.nextInstr = none) :
    (s.fetch = none ∧ cycle s = .next (s.raise .fetchBounds)) ∨ (s.fetch ≠ none ∧ cycle s = .next s) := by
  simp only [State.nextInstr] at h
  cases hf : s.fetch with
  | none => simp [cycle, hf]
  | some op =>
    cases hd : decodeWord op with
    | ok i => simp [hf, hd] at h
    | error e => simp [cycle, hf, hd, execUnrecognised]

/-- Every frame step is one of these: the core is halted, waits, executes an instruction, fails to fetch, or meets an unrecognised opcode. -/
theorem frameStep_cases :
    (s.halt = true ∧ frameStep k s = .next s) ∨
    (s.halt = false ∧ s.wait = true ∧ frameStep k s = .next (s.beginFrame k).serveKeyWait) ∨
    (s.running ∧ ∃ i, s.nextInstr = some i ∧ frameStep k s = exec i (s.beforeCycle k)) ∨
    (s.running ∧ s.fetch = none ∧ frameStep k s = .next ((s.beforeCycle k).raise .fetchBounds)) ∨
    (s.running ∧ s.fetch ≠ none ∧ s.nextInstr = none ∧ frameStep k s = .next (s.beforeCycle k)) := by
  cases hh : s.halt
  · cases hw : s.wait
    · have hr : s.running := ⟨hh, hw⟩
      rw [frameStep_running s k hr]
      cases hn : s.nextInstr with
      | some i => exact .inr (.inr (.inl ⟨hr, i, rfl, cycle_of_some _ (by simpa using hn)⟩))
      | none =>
        rcases cycle_of_none (s.beforeCycle k) (by simpa using hn) with ⟨hf, hc⟩ | ⟨hf, hc⟩
        · exact .inr (.inr (.inr (.inl ⟨hr, hf, hc⟩)))
        · exact .inr (.inr (.inr (.inr ⟨hr, hf, rfl, hc⟩)))
    · exact .inr (.inl ⟨rfl, rfl, frameStep_waiting s k hh hw⟩)
  · exact .inl ⟨rfl, frameStep_halted s k hh⟩

end Sys2Proof.Machine
end

