-- ==== Sys2Proof/Tests/Slice0.lean ====
section
/-! SUPPORT. The model's own tests. Expected values are those of spec/95_test_vectors.md, whose vector each comment names,
or come from the spec's tables by hand. The last part holds a state and operands for the hypotheses of each statement. -/

namespace Sys2Proof.Tests

open Sys2Proof.Machine

/-! ### Helpers -/

/-- What f says of the next state; nothing where there is none. -/
def see {α : Type} (f : State → α) : Result → Option α
  | .next t => some (f t)
  | .fault _ => none
  | .refused _ => none

/-- The reset state with these registers. -/
def regs (l : List (Nibble × Byte)) : State := l.foldl (fun s p => s.setReg p.1 p.2) State.reset

/-- Key states with exactly these keys pressed. -/
def press (ks : List Nat) : Keys := Vector.ofFn fun k => ks.contains k.val

/-- A framebuffer with exactly these pixels, as (row, column), set. -/
def lit (ps : List (Fin 32 × Fin 64)) : Framebuffer := ps.foldl (fun f p => f.setPixel p.1 p.2 true) Framebuffer.blank

/-- The state s with this opcode at its program counter. -/
def atPc (s : State) (op : Word) : State := s.placeWord op

/-! ### WellFormed: the two terms that stand for no word (R94) -/

theorem test_sys_0E0_ill_formed : (Instr.sys 0x0E0).wellFormed = false := by decide
theorem test_sys_0EE_ill_formed : (Instr.sys 0x0EE).wellFormed = false := by decide
theorem test_sys_0E1_well_formed : (Instr.sys 0x0E1).wellFormed = true := by decide

/-! ### Decoding: each row's word, written out bit by bit from its pattern in R95 -/

theorem test_decode_cls : decodeWord 0b0000000011100000 = .ok .cls := by decide
theorem test_decode_ret : decodeWord 0b0000000011101110 = .ok .ret := by decide
/-- E4: nnn = 0x0E1. -/
theorem test_decode_sys : decodeWord 0b0000000011100001 = .ok (.sys 0x0E1) := by decide
/-- E7: nnn = 0xABC. -/
theorem test_decode_jp : decodeWord 0b0001101010111100 = .ok (.jp 0xABC) := by decide
theorem test_decode_call : decodeWord 0b0010101010111100 = .ok (.call 0xABC) := by decide
/-- E8: x = 0xA, nn = 0x7F. -/
theorem test_decode_seImm : decodeWord 0b0011101001111111 = .ok (.seImm 0xA 0x7F) := by decide
theorem test_decode_sneImm : decodeWord 0b0100101001111111 = .ok (.sneImm 0xA 0x7F) := by decide
/-- E9. -/
theorem test_decode_seReg : decodeWord 0b0101101010110000 = .ok (.seReg 0xA 0xB) := by decide
theorem test_decode_ldImm : decodeWord 0b0110101000111100 = .ok (.ldImm 0xA 0x3C) := by decide
theorem test_decode_addImm : decodeWord 0b0111001000000101 = .ok (.addImm 0x2 0x05) := by decide
theorem test_decode_ldReg : decodeWord 0b1000101010110000 = .ok (.ldReg 0xA 0xB) := by decide
theorem test_decode_orReg : decodeWord 0b1000101010110001 = .ok (.orReg 0xA 0xB) := by decide
theorem test_decode_andReg : decodeWord 0b1000101010110010 = .ok (.andReg 0xA 0xB) := by decide
theorem test_decode_xorReg : decodeWord 0b1000101010110011 = .ok (.xorReg 0xA 0xB) := by decide
theorem test_decode_addReg : decodeWord 0b1000101010110100 = .ok (.addReg 0xA 0xB) := by decide
theorem test_decode_subReg : decodeWord 0b1000101010110101 = .ok (.subReg 0xA 0xB) := by decide
theorem test_decode_shr : decodeWord 0b1000101010110110 = .ok (.shr 0xA 0xB) := by decide
/-- E11. -/
theorem test_decode_subnReg : decodeWord 0b1000101010110111 = .ok (.subnReg 0xA 0xB) := by decide
/-- E13. -/
theorem test_decode_shl : decodeWord 0b1000101010111110 = .ok (.shl 0xA 0xB) := by decide
theorem test_decode_sneReg : decodeWord 0b1001101010110000 = .ok (.sneReg 0xA 0xB) := by decide
theorem test_decode_ldI : decodeWord 0b1010001011110000 = .ok (.ldI 0x2F0) := by decide
theorem test_decode_jpV0 : decodeWord 0b1011001100000000 = .ok (.jpV0 0x300) := by decide
theorem test_decode_rnd : decodeWord 0b1100000100001111 = .ok (.rnd 0x1 0x0F) := by decide
/-- E16: x = 1, y = 2, n = 5. -/
theorem test_decode_drw : decodeWord 0b1101000100100101 = .ok (.drw 0x1 0x2 0x5) := by decide
theorem test_decode_skp : decodeWord 0b1110010110011110 = .ok (.skp 0x5) := by decide
theorem test_decode_sknp : decodeWord 0b1110010110100001 = .ok (.sknp 0x5) := by decide
theorem test_decode_ldVxDt : decodeWord 0b1111001100000111 = .ok (.ldVxDt 0x3) := by decide
theorem test_decode_ldVxK : decodeWord 0b1111001100001010 = .ok (.ldVxK 0x3) := by decide
theorem test_decode_ldDtVx : decodeWord 0b1111001100010101 = .ok (.ldDtVx 0x3) := by decide
theorem test_decode_ldStVx : decodeWord 0b1111001100011000 = .ok (.ldStVx 0x3) := by decide
theorem test_decode_addIVx : decodeWord 0b1111001000011110 = .ok (.addIVx 0x2) := by decide
theorem test_decode_ldFVx : decodeWord 0b1111001000101001 = .ok (.ldFVx 0x2) := by decide
theorem test_decode_ldBVx : decodeWord 0b1111101000110011 = .ok (.ldBVx 0xA) := by decide
theorem test_decode_storeRegs : decodeWord 0b1111001001010101 = .ok (.storeRegs 0x2) := by decide
/-- E24. -/
theorem test_decode_loadRegs : decodeWord 0b1111111101100101 = .ok (.loadRegs 0xF) := by decide

/-- E10, E12, E14, E15, E19, E21, E22, E23: the unrecognised words of the vectors. -/
theorem test_decode_unrecognised :
    [0x5AB1, 0x8AB8, 0x8ABF, 0x9AB1, 0xE19F, 0xF000, 0xF075, 0xFFFF].map (fun op => (decodeWord op).toOption) =
      List.replicate 8 none := by
  decide

/-- E16 backwards, and the two bytes as they lie in memory (R63). -/
theorem test_encode_drw : encodeBytes (.drw 1 2 5) = [0xD1, 0x25] := by decide
theorem test_decode_truncated : decode [0xD1] = .error (.truncated [0xD1]) := by decide

/-! ### Control flow (2.2) -/

/-- CF1. -/
theorem test_sys : see (·.pc) (exec (.sys 0) State.reset) = some 0x202 := by decide
/-- CF5: an odd target. -/
theorem test_jp : see (·.pc) (exec (.jp 0x201) State.reset) = some 0x201 := by decide
/-- CF7: CALL at 0xFFE pushes 0x1000. -/
theorem test_call : see (fun t => (t.stk, t.pc)) (exec (.call 0x200) { State.reset with pc := 0xFFE }) = some ([0x1000], 0x200) := by
  decide
/-- CF8. -/
theorem test_call_overflow :
    see (fun t => (t.halt, faultCode t.cause, t.stk.length, t.pc)) (exec (.call 0x300) { State.reset with stk := List.replicate 16 0x202 }) =
      some (true, 2, 16, 0x200) := by
  decide
/-- CF12: last in, first out. -/
theorem test_ret :
    see (fun t => (t.stk, t.pc)) (exec .ret { State.reset with pc := 0x30A, stk := [0x206, 0x402] }) = some ([0x206], 0x402) := by
  decide
/-- CF11. -/
theorem test_ret_underflow :
    see (fun t => (t.halt, faultCode t.cause, t.pc)) (exec .ret State.reset) = some (true, 1, 0x200) := by
  decide
/-- CF13. -/
theorem test_seImm_equal : see (·.pc) (exec (.seImm 3 0x2A) (regs [(3, 0x2A)])) = some 0x204 := by decide
/-- CF14. -/
theorem test_seImm_unequal : see (·.pc) (exec (.seImm 3 0x2B) (regs [(3, 0x2A)])) = some 0x202 := by decide
/-- CF15. -/
theorem test_sneImm_equal : see (·.pc) (exec (.sneImm 3 0x2A) (regs [(3, 0x2A)])) = some 0x202 := by decide
/-- CF16. -/
theorem test_sneImm_unequal : see (·.pc) (exec (.sneImm 3 0x2B) (regs [(3, 0x2A)])) = some 0x204 := by decide
/-- CF17. -/
theorem test_seReg_equal : see (·.pc) (exec (.seReg 1 2) (regs [(1, 7), (2, 7)])) = some 0x204 := by decide
/-- CF18. -/
theorem test_seReg_unequal : see (·.pc) (exec (.seReg 1 2) (regs [(1, 7), (2, 8)])) = some 0x202 := by decide
/-- CF20. -/
theorem test_sneReg_unequal : see (·.pc) (exec (.sneReg 1 2) (regs [(1, 7), (2, 8)])) = some 0x204 := by decide
/-- CF21. -/
theorem test_sneReg_same : see (·.pc) (exec (.sneReg 3 3) (regs [(3, 9)])) = some 0x202 := by decide
/-- CF23: the sum is not reduced. -/
theorem test_jpV0 : see (·.pc) (exec (.jpV0 0xFFF) (regs [(0, 0xFF)])) = some 0x10FE := by decide

/-! ### ALU (2.3) -/

/-- A2: VF is written as plain data. -/
theorem test_ldImm : see (fun t => (t.reg 15, t.pc)) (exec (.ldImm 15 7) (regs [(15, 1)])) = some (7, 0x202) := by decide
/-- A4: no flag. -/
theorem test_addImm : see (fun t => (t.reg 2, t.reg 15)) (exec (.addImm 2 1) (regs [(2, 0xFF), (15, 1)])) = some (0, 1) := by decide
/-- A6. -/
theorem test_ldReg : see (fun t => (t.reg 1, t.reg 4)) (exec (.ldReg 1 4) (regs [(4, 0x99)])) = some (0x99, 0x99) := by decide
/-- A7: VF is not cleared. -/
theorem test_orReg :
    see (fun t => (t.reg 1, t.reg 15)) (exec (.orReg 1 2) (regs [(1, 0xF0), (2, 0x0F), (15, 1)])) = some (0xFF, 1) := by decide
/-- A8. -/
theorem test_andReg : see (·.reg 1) (exec (.andReg 1 2) (regs [(1, 0xF3), (2, 0x3F)])) = some 0x33 := by decide
/-- A9. -/
theorem test_xorReg : see (·.reg 1) (exec (.xorReg 1 2) (regs [(1, 0xFF), (2, 0x0F)])) = some 0xF0 := by decide
/-- A16: VF as the addend. -/
theorem test_addReg : see (fun t => (t.reg 0, t.reg 15)) (exec (.addReg 0 15) (regs [(0, 0xFF), (15, 1)])) = some (0, 1) := by decide
/-- A18: VF as the destination ends as the flag. -/
theorem test_addReg_vf : see (·.reg 15) (exec (.addReg 15 1) (regs [(15, 3), (1, 4)])) = some 0 := by decide
/-- A19. -/
theorem test_subReg : see (fun t => (t.reg 0, t.reg 15)) (exec (.subReg 0 1) (regs [(0, 5), (1, 7)])) = some (0xFE, 0) := by decide
/-- A23: equal operands borrow nothing. -/
theorem test_subReg_same : see (fun t => (t.reg 3, t.reg 15)) (exec (.subReg 3 3) (regs [(3, 0x44)])) = some (0, 1) := by decide
/-- A27: Vy takes no part. -/
theorem test_shr :
    see (fun t => (t.reg 3, t.reg 15, t.reg 4)) (exec (.shr 3 4) (regs [(3, 4), (4, 0xFF)])) = some (2, 0, 0xFF) := by decide
/-- A31. -/
theorem test_shr_vf : see (·.reg 15) (exec (.shr 15 0) (regs [(15, 2)])) = some 0 := by decide
/-- A33. -/
theorem test_subnReg : see (fun t => (t.reg 0, t.reg 15)) (exec (.subnReg 0 1) (regs [(0, 7), (1, 5)])) = some (0xFE, 0) := by decide
/-- A34. -/
theorem test_subnReg_equal : see (fun t => (t.reg 0, t.reg 15)) (exec (.subnReg 0 1) (regs [(0, 7), (1, 7)])) = some (0, 1) := by decide
/-- A35. -/
theorem test_shl : see (fun t => (t.reg 3, t.reg 15)) (exec (.shl 3 0) (regs [(3, 0x81)])) = some (2, 1) := by decide
/-- A36. -/
theorem test_shl_no_carry : see (fun t => (t.reg 3, t.reg 15)) (exec (.shl 3 0) (regs [(3, 0x7F)])) = some (0xFE, 0) := by decide
/-- A41: the register holds the draw, whatever it is. -/
theorem test_rnd_all_bits : see (·.reg 1) (exec (.rnd 1 0xFF) State.reset) = some (Config.randIn 0) := by
  show some (Config.randIn 0 &&& BitVec.allOnes 8) = _
  rw [BitVec.and_allOnes]
/-- D18: one draw is consumed. -/
theorem test_rnd_consumes : see (·.drawNo) (exec (.rnd 1 0) State.reset) = some 1 := by rfl

/-! ### Index register and memory (2.4) -/

/-- M1. -/
theorem test_ldI : see (·.i) (exec (.ldI 0x2F0) State.reset) = some 0x2F0 := by decide
/-- M3: 16-bit overflow. -/
theorem test_addIVx :
    see (fun t => (t.i, t.reg 15)) (exec (.addIVx 2) { regs [(2, 1)] with i := 0xFFFF }) = some (0, 1) := by decide
/-- M4: no flag at 0xFFF. -/
theorem test_addIVx_12_bits :
    see (fun t => (t.i, t.reg 15)) (exec (.addIVx 2) { regs [(2, 1), (15, 1)] with i := 0xFFF }) = some (0x1000, 0) := by decide
/-- M7. -/
theorem test_ldFVx : see (·.i) (exec (.ldFVx 2) (regs [(2, 7)])) = some 0x23 := by decide
/-- M10: the whole byte is multiplied. -/
theorem test_ldFVx_not_masked : see (·.i) (exec (.ldFVx 2) (regs [(2, 0xFF)])) = some 0x4FB := by decide
/-- M16: the highest legal I. -/
theorem test_ldBVx :
    see (·.mem) (exec (.ldBVx 0) { regs [(0, 0x7B)] with i := 0xFFD }) = some [(0xFFD, 1), (0xFFE, 2), (0xFFF, 3)] := by decide
/-- M17. -/
theorem test_ldBVx_bounds :
    see (fun t => (t.halt, faultCode t.cause, t.mem, t.pc)) (exec (.ldBVx 0) { regs [(0, 0x7B)] with i := 0xFFE }) =
      some (true, 4, [], 0x200) := by decide
/-- M18. -/
theorem test_storeRegs :
    see (fun t => (t.mem, t.i)) (exec (.storeRegs 2) { regs [(0, 0x11), (1, 0x22), (2, 0x33), (3, 0x44)] with i := 0x400 }) =
      some ([(0x400, 0x11), (0x401, 0x22), (0x402, 0x33)], 0x400) := by decide
/-- M21. -/
theorem test_storeRegs_bounds :
    see (fun t => (faultCode t.cause, t.mem)) (exec (.storeRegs 15) { regs [(0, 1)] with i := 0xFF1 }) = some (4, []) := by decide
/-- M24. -/
theorem test_loadRegs :
    see (fun t => (t.reg 0, t.reg 1, t.reg 2, t.reg 3, t.i))
        (exec (.loadRegs 2) { regs [(3, 0x77)] with i := 0x300, mem := [(0x300, 2), (0x301, 3), (0x302, 4)] }) =
      some (2, 3, 4, 0x77, 0x300) := by decide
/-- M27. -/
theorem test_loadRegs_bounds :
    see (fun t => (faultCode t.cause, t.reg 0)) (exec (.loadRegs 1) { regs [(0, 9)] with i := 0xFFF, mem := [(0xFFF, 5)] }) =
      some (4, 9) := by decide

/-! ### Display (2.5) -/

/-- G1. -/
theorem test_cls :
    see (fun t => (t.fb.pixel 5 5, t.changed, t.reg 15)) (exec .cls { regs [(15, 1)] with fb := lit [(5, 5)] }) =
      some (false, true, 1) := by decide
/-- G3: wrapping at both edges. -/
theorem test_drw_wraps :
    see (fun t => ([(31, 62), (31, 63), (31, 4), (31, 5), (0, 62), (0, 5), (31, 0), (0, 63)].map fun p => t.fb.pixel p.1 p.2, t.reg 15))
        (exec (.drw 0 1 2) { regs [(0, 62), (1, 31)] with i := 0x20E, mem := [(0x20E, 0xC3), (0x20F, 0x81)] }) =
      some ([true, true, true, true, true, true, false, false], 0) := by decide
/-- G7: one collision is enough. -/
theorem test_drw_collides :
    see (fun t => (t.fb.pixel 0 0, t.fb.pixel 0 1, t.reg 15))
        (exec (.drw 0 1 1) { State.reset with i := 0x300, mem := [(0x300, 0xC0)], fb := lit [(0, 0)] }) =
      some (false, true, 1) := by decide

/-! ### Timers, keys and the frame step (2.6) -/

/-- K1: the read sees the decremented value. -/
theorem test_ldVxDt : see (fun t => (t.dt, t.reg 3)) (frameStep (press []) (atPc { State.reset with dt := 0x1F } 0xF307)) =
    some (0x1E, 0x1E) := by decide
/-- K2: not decremented in this frame step. -/
theorem test_ldDtVx : see (·.dt) (frameStep (press []) (atPc (regs [(0, 0x3C)]) 0xF015)) = some 0x3C := by decide
/-- K6. -/
theorem test_ldStVx : see (fun t => (t.st, (outputs t).tone)) (frameStep (press []) (atPc { State.reset with st := 5 } 0xF018)) =
    some (0, false) := by decide
/-- K9. -/
theorem test_skp : see (·.pc) (frameStep (press [10]) (atPc (regs [(5, 0x0A)]) 0xE59E)) = some 0x204 := by decide
/-- K14. -/
theorem test_skp_index : see (fun t => (t.halt, faultCode t.cause, t.pc)) (frameStep (press []) (atPc (regs [(5, 0x10)]) 0xE59E)) =
    some (true, 5, 0x200) := by decide
/-- K11. -/
theorem test_sknp : see (·.pc) (frameStep (press [10]) (atPc (regs [(5, 0x0A)]) 0xE5A1)) = some 0x202 := by decide
/-- K15. -/
theorem test_sknp_index : see (fun t => (t.halt, faultCode t.cause)) (frameStep (press [1]) (atPc (regs [(5, 0xFF)]) 0xE5A1)) =
    some (true, 5) := by decide
/-- K17: the instruction does not look at the keys. -/
theorem test_ldVxK :
    see (fun t => (t.dt, t.wait, t.waitReg, t.pc, t.reg 3)) (frameStep (press [2]) (atPc { State.reset with dt := 9 } 0xF30A)) =
      some (8, true, 3, 0x202, 0) := by decide
/-- K20: the lowest index. -/
theorem test_key_wait_delivers :
    see (fun t => (t.reg 1, t.wait)) (frameStep (press [4, 9]) { State.reset with wait := true, waitReg := 1 }) = some (4, false) := by
  decide
/-- K19: nothing moves while no key is pressed. -/
theorem test_key_wait_goes_on :
    see (fun t => (t.wait, t.dt, t.st, (outputs t).tone))
        (frameStep (press []) { State.reset with wait := true, waitReg := 3, dt := 8, st := 5 }) = some (true, 8, 5, true) := by
  decide
/-- K23: a halted core ignores the frame step. -/
theorem test_halted :
    see (fun t => (t.changed, t.dt, t.keys == press [])) (frameStep (press [1])
        { State.reset with halt := true, cause := some .stackUnderflow, changed := true, dt := 7 }) = some (true, 7, true) := by
  decide
/-- CF25: an unrecognised opcode writes nothing. -/
theorem test_unrecognised : see (fun t => (t.pc, t.halt)) (frameStep (press []) (atPc State.reset 0x8AB8)) = some (0x200, false) := by
  decide
/-- CF4: the fetch fault. -/
theorem test_fetch_bounds :
    see (fun t => (t.halt, faultCode t.cause, t.pc)) (frameStep (press []) { State.reset with pc := 0xFFF }) = some (true, 3, 0xFFF) := by
  decide
/-- R281 to R283 and the font default of R66, under its premise (S7, M26). -/
theorem test_font_default (h : Config.fontTable = Config.defaultFontTable) :
    [0, 4, 5, 79, 80].map State.reset.mem.read = [0xF0, 0xF0, 0x20, 0x80, 0x00] := by
  simp [State.reset, Memory.read, Memory.unlisted, h, Config.defaultFontTable]

/-! ### Witnesses: for each statement of Certificates/Slice0/Obligations.lean with hypotheses, a state and operands that meet all of
them, for each clause and at the boundary values. -/

theorem witness_EncodeThenDecodeIsIdentity :
    (Instr.sys 0x0ED).wellFormed = true ∧ (Instr.sys 0x0EF).wellFormed = true ∧ (Instr.drw 15 15 15).wellFormed = true := by decide

theorem witness_DecodeThenEncodeIsIdentity : decodeWord 0xFF65 = .ok (.loadRegs 15) := by decide

theorem witness_DispatchIsFirstMatchingRow :
    (∃ a b, opcodeRows[0]? = some a ∧ opcodeRows[2]? = some b ∧ (0x00E0 : Word) &&& a.mask = a.bits ∧ (0x00E0 : Word) &&& b.mask = b.bits) ∧
    (∃ a b, opcodeRows[1]? = some a ∧ opcodeRows[2]? = some b ∧ (0x00EE : Word) &&& a.mask = a.bits ∧ (0x00EE : Word) &&& b.mask = b.bits) :=
  ⟨⟨_, _, rfl, rfl, by decide, by decide⟩, ⟨_, _, rfl, rfl, by decide, by decide⟩⟩

theorem witness_UnrecognisedWordsAreThoseListed :
    (fieldD3 0x5AB1 = 0x5 ∧ fieldN 0x5AB1 ≠ 0) ∧ fieldN 0x8AB8 ∈ [0x8, 0x9, 0xA, 0xB, 0xC, 0xD, 0xF] ∧
    fieldN 0x8ABE ∉ [0x8, 0x9, 0xA, 0xB, 0xC, 0xD, 0xF] := by decide

theorem witness_ResetLeavesTheSpecsValues :
    (State.reset = State.reset ∨ State.reset = hostReset State.reset) ∧ (0 < 80 ∧ 79 < 80) ∧ (80 ≤ 80 ∧ 0xFFF ≤ 0xFFF) :=
  ⟨.inl rfl, by decide, by decide⟩

/-- A buffer one byte too long: its last copied byte is number 3583; and a program that leaves exactly the last cell. -/
theorem witness_LoadCopiesAtMost3584Bytes :
    State.reset.mem.wf ∧ 3583 < (List.replicate 3585 (7 : Byte)).length ∧ 0x1FF < 0x200 ∧
    0x200 + (List.replicate 3583 (7 : Byte)).length ≤ 0xFFF := by
  refine ⟨by decide, ?_, by decide, ?_⟩ <;> simp only [List.length_replicate] <;> decide

/-- Both cases of the match, and a program of one byte. -/
theorem witness_FirstFrameRunsTheWordAt0x200 :
    decodeWord (([0x60, 0x05] : List Byte)[0]?.getD 0 ++ ([0x60, 0x05] : List Byte)[1]?.getD 0) = .ok (.ldImm 0 5) ∧
    decodeWord (([0x8A, 0xB8] : List Byte)[0]?.getD 0 ++ ([0x8A, 0xB8] : List Byte)[1]?.getD 0) = .error (.unrecognised 0x8AB8) ∧
    decodeWord (([0x61] : List Byte)[0]?.getD 0 ++ ([0x61] : List Byte)[1]?.getD 0) = .ok (.ldImm 1 0) := by decide

theorem witness_StepRunsTheDecodedInstruction :
    (atPc State.reset 0x00E0).running ∧ (atPc State.reset 0x00E0).fetch = some 0x00E0 ∧ decodeWord 0x00E0 = .ok .cls := by decide

theorem witness_FetchIsBigEndianOrFaults :
    ({ State.reset with pc := 0xFFE } : State).pc.toNat + 1 ≤ 0xFFF ∧ 0xFFF ≤ ({ State.reset with pc := 0xFFF } : State).pc.toNat := by
  decide

theorem witness_HaltedCoreIgnoresFrames : (State.reset.raise .keyIndex).halt = true := by decide

theorem witness_ChangedTellsClearOrDraw : State.reset.halt = false := by decide

/-- Both skips, key 15 and key 0. -/
theorem witness_KeysAreReplacedEachFrame :
    State.reset.halt = false ∧ State.reset.wait = false ∧
    ((regs [(5, 15)]).reg 5).toNat = (15 : Fin 16).val ∧ (State.reset.reg 5).toNat = (0 : Fin 16).val ∧
    (atPc State.reset 0xE59E).nextInstr = some (.skp 5) ∧ (atPc State.reset 0xE5A1).nextInstr = some (.sknp 5) ∧
    ({ State.reset with wait := true } : State).wait = true := by decide

/-- A wait, keys whose least is 15 and whose least is 0, and no key. -/
theorem witness_KeyWaitDeliversTheLeastKey :
    ({ State.reset with wait := true, waitReg := 15 } : State).halt = false ∧
    (press [15])[(15 : Fin 16)] = true ∧ (∀ j : Fin 16, j < 15 → (press [15])[j] = false) ∧
    (press [0, 9])[(0 : Fin 16)] = true ∧ (∀ j : Fin 16, j < 0 → (press [0, 9])[j] = false) ∧
    (∀ j : Fin 16, (press [])[j] = false) := by decide

/-- Each clause's next instruction, in a running core. -/
theorem witness_TimersCountOncePerCycleFrame :
    (State.reset.raise .keyIndex).halt = true ∧ ({ State.reset with wait := true } : State).wait = true ∧
    (atPc State.reset 0xF315).running ∧ (atPc State.reset 0xF315).nextInstr = some (.ldDtVx 3) ∧
    (atPc State.reset 0xF318).nextInstr = some (.ldStVx 3) ∧ (atPc State.reset 0xF307).nextInstr = some (.ldVxDt 3) := by decide

/-- A sound timer of 1 set in the cycle, and one of 1 that runs out. -/
theorem witness_ReportIsTakenAtTheEnd :
    (atPc (regs [(3, 1)]) 0xF318).running ∧ (atPc (regs [(3, 1)]) 0xF318).nextInstr = some (.ldStVx 3) ∧
    (atPc (regs [(3, 1)]) 0xF318).reg 3 ≠ 0 ∧
    (atPc { State.reset with st := 1 } 0x00E0).running ∧ (atPc { State.reset with st := 1 } 0x00E0).st = 1 ∧
    (atPc { State.reset with st := 1 } 0x00E0).nextInstr = some .cls := by decide

theorem witness_TimersCountOncePerCycleFrame_other :
    (∀ x, (atPc State.reset 0x00E0).nextInstr ≠ some (.ldDtVx x)) ∧ (∀ x, (atPc State.reset 0x00E0).nextInstr ≠ some (.ldStVx x)) := by
  have h : (atPc State.reset 0x00E0).nextInstr = some .cls := by decide
  rw [h]
  exact ⟨nofun, nofun⟩

/-- No cycle, a cycle with an instruction, a cycle with none. -/
theorem witness_FrameStepNeverActsOutsideACycle :
    ({ State.reset with wait := true } : State).wait = true ∧
    (atPc State.reset 0x00E0).running ∧ (atPc State.reset 0x00E0).nextInstr = some .cls ∧
    (atPc State.reset 0x8AB8).running ∧ (atPc State.reset 0x8AB8).nextInstr = none := by decide

theorem witness_UnrecognisedOpcodeSpins :
    (atPc State.reset 0x8AB8).running ∧ (atPc State.reset 0x8AB8).fetch = some 0x8AB8 ∧
    decodeWord 0x8AB8 = .error (.unrecognised 0x8AB8) ∧ [press [1]] ≠ [] := by decide

theorem witness_JumpToItselfSpins :
    (atPc State.reset 0x1200).running ∧ (atPc State.reset 0x1200).nextInstr = some (.jp 0x200) ∧
    (atPc State.reset 0x1200).pc.toNat = (0x200 : Addr).toNat := by decide

/-- Two frames without a key, then key 3. -/
theorem witness_KeyWaitLastsUntilAKey :
    ({ State.reset with wait := true } : State).halt = false ∧
    (∀ q ∈ [press [], press []], ∀ j : Fin 16, q[j] = false) ∧ (press [3, 9])[(3 : Fin 16)] = true ∧
    (∀ j : Fin 16, j < 3 → (press [3, 9])[j] = false) := by
  refine ⟨by decide, fun q hq => ?_, by decide, by decide⟩
  obtain rfl : q = press [] := by simpa using hq
  decide

/-- A latched wait; and a frame step that latches one. -/
theorem witness_AtMostOneKeyWait :
    ({ State.reset with wait := true } : State).wait = true ∧
    see (·.wait) (frameStep (press []) (atPc State.reset 0xF30A)) = some true := by decide

/-- A RET (0x00EE at 0x200) with an entry of 0x1000 on the stack. -/
def returning : State := { State.reset with stk := [0x1000], mem := [(0x201, 0xEE)] }

theorem witness_EveryStepKeepsTheInvariant : returning.Inv where
  memory := by
    refine ⟨by decide, fun p hp => ?_⟩
    obtain rfl : p = (0x201, 0xEE) := by simpa [returning] using hp
    decide
  depth := by decide
  returns := by
    intro a ha
    obtain rfl : a = 0x1000 := by simpa [returning] using ha
    decide
  target := by decide
  causeOfHalt := ⟨nofun, fun h => absurd rfl h⟩
  oneStop := nofun

theorem witness_EveryStepKeepsTheInvariant_step : see (·.pc) (step returning) = some 0x1000 := by decide

/-- Every row of R250 met, with the boundary values of its condition. -/
theorem witness_FaultsAreThoseOfTheTable :
    faultOf State.reset .ret = some .stackUnderflow ∧
    faultOf { State.reset with stk := List.replicate 16 0 } (.call 0) = some .stackOverflow ∧
    faultOf { State.reset with i := 0xFFF } (.drw 0 1 2) = some .dataBounds ∧
    faultOf { State.reset with i := 0xFFE } (.ldBVx 0) = some .dataBounds ∧
    faultOf { State.reset with i := 0xFF1 } (.storeRegs 15) = some .dataBounds ∧
    faultOf { State.reset with i := 0xFFF } (.loadRegs 1) = some .dataBounds := by decide

theorem witness_FaultsAreThoseOfTheTable_rest :
    faultOf (regs [(5, 16)]) (.skp 5) = some .keyIndex ∧ faultOf (regs [(5, 16)]) (.sknp 5) = some .keyIndex ∧
    0xFFF ≤ ({ State.reset with pc := 0xFFF } : State).pc.toNat ∧
    (atPc { State.reset with pc := 0xFFE } 0x8AB8).pc.toNat < 0xFFF ∧
    (atPc { State.reset with pc := 0xFFE } 0x8AB8).nextInstr = none := by decide

/-- Every row of R250 just missed. -/
theorem witness_InstructionsWriteOnlyTheirElements :
    faultOf { State.reset with stk := [0] } .ret = none ∧
    faultOf { State.reset with stk := List.replicate 15 0 } (.call 0) = none ∧
    faultOf { State.reset with i := 0xFFF } (.drw 0 1 1) = none ∧ faultOf { State.reset with i := 0xFFFF } (.drw 0 1 0) = none ∧
    faultOf { State.reset with i := 0xFFD } (.ldBVx 0) = none := by decide

theorem witness_InstructionsWriteOnlyTheirElements_rest :
    faultOf { State.reset with i := 0xFF0 } (.storeRegs 15) = none ∧
    faultOf { State.reset with i := 0xFFF } (.loadRegs 0) = none ∧
    faultOf (regs [(5, 15)]) (.skp 5) = none ∧ faultOf (regs [(5, 15)]) (.sknp 5) = none ∧ faultOf State.reset .cls = none := by decide

theorem witness_FaultsArePrecise :
    (atPc State.reset 0x00EE).halt = false ∧
    ∃ t, frameStep (press []) (atPc State.reset 0x00EE) = .next t ∧ t.halt = true :=
  ⟨by decide, _, rfl, rfl⟩

/-- A jump, a skip and a RET that meet no fault. -/
theorem witness_PcFollowsItsClass :
    faultOf State.reset (.jpV0 0xFFF) = none ∧ faultOf (regs [(5, 15)]) (.skp 5) = none ∧
    faultOf { State.reset with stk := [0x206] } .ret = none ∧
    (atPc State.reset 0x8AB8).fetch = some 0x8AB8 ∧ decodeWord 0x8AB8 = .error (.unrecognised 0x8AB8) := by decide

/-- A register that is no destination and not VF; VF beside an instruction that writes no flag; an instruction that writes one. -/
theorem witness_OnlyFlagWritersTouchVf :
    faultOf State.reset (.addReg 1 2) = none ∧ faultOf State.reset (.orReg 1 2) = none ∧
    (isDestination 3 (.addReg 1 2) = false ∧ (3 : Nibble) ≠ 15) ∧
    (isDestination 15 (.orReg 1 2) = false ∧ writesFlag (.orReg 1 2) = false) ∧ writesFlag (.addReg 1 2) = true := by decide

/-- VF beside an ADD of two other registers, and Vy beside a shift. -/
theorem witness_UnnamedRegistersDoNotMatter :
    readsReg 15 (.addReg 1 2) = false ∧ readsReg 2 (.shr 1 2) = false ∧ readsReg 3 (.storeRegs 2) = false := by decide

theorem witness_OnlyKeySkipsReadKeys : ∀ x, Instr.ldVxK 3 ≠ .skp x ∧ Instr.ldVxK 3 ≠ .sknp x := fun _ => ⟨nofun, nofun⟩

/-- 15 and 16 entries. -/
theorem witness_CallPushesTheNextAddress :
    ({ State.reset with stk := List.replicate 15 0x202 } : State).stk.length < 16 ∧
    16 ≤ ({ State.reset with stk := List.replicate 16 0x202 } : State).stk.length := by decide

theorem witness_ReturnPopsIntoPc :
    ({ State.reset with stk := [0x206, 0x402] } : State).stk = [0x206] ++ [0x402] ∧ State.reset.stk = [] := by decide

/-- The stack the CALL leaves is that of a state u. -/
theorem witness_ReturnUndoesCall :
    State.reset.stk.length < 16 ∧ see (·.stk) (exec (.call 0x300) State.reset) = some ({ State.reset with stk := [0x202] } : State).stk := by decide

theorem witness_SkipsAdvanceFourOrTwo :
    (regs [(3, 0x2A)]).reg 3 = 0x2A ∧ (regs [(3, 0x2A)]).reg 3 ≠ 0x2B ∧
    (regs [(1, 7), (2, 7)]).reg 1 = (regs [(1, 7), (2, 7)]).reg 2 ∧ (regs [(1, 7), (2, 8)]).reg 1 ≠ (regs [(1, 7), (2, 8)]).reg 2 := by
  decide

/-- Sums of 256 and of 255, x = 15 aside. -/
theorem witness_AddWritesSumAndCarry :
    (0 : Nibble) ≠ 15 ∧ 256 ≤ ((regs [(0, 0xFF), (1, 1)]).reg 0).toNat + ((regs [(0, 0xFF), (1, 1)]).reg 1).toNat ∧
    ((regs [(0, 0x7F), (1, 0x80)]).reg 0).toNat + ((regs [(0, 0x7F), (1, 0x80)]).reg 1).toNat < 256 := by decide

/-- Equal operands, and a borrow by one. -/
theorem witness_SubtractWritesNotBorrow :
    ((regs [(0, 7), (1, 7)]).reg 1).toNat ≤ ((regs [(0, 7), (1, 7)]).reg 0).toNat ∧
    ((regs [(0, 0), (1, 1)]).reg 0).toNat < ((regs [(0, 0), (1, 1)]).reg 1).toNat := by decide

/-- Another register than x; VF is one. -/
theorem witness_LoadsCopiesAndAddImmediate : (15 : Nibble) ≠ 3 := by decide

/-- The lowest and the highest bit, and another register than x. -/
theorem witness_LogicIsBitByBit : 0 < 8 ∧ 7 < 8 ∧ (15 : Nibble) ≠ 3 := by decide

theorem witness_ShiftsWriteTheBitShiftedOut : (3 : Nibble) ≠ 15 ∧ (4 : Nibble) ≠ 3 ∧ 6 < 7 ∧ 7 < 8 := by decide

theorem witness_RandomIsAFreshDrawMasked : (0xFF : Byte) = 0xFF ∧ (0 : Byte) = 0 ∧ (4 : Nibble) ≠ 3 := by decide

/-- Sums of 65536 and of 65535. -/
theorem witness_IndexIsLoadedAddedAndPointed :
    65536 ≤ ({ regs [(2, 1)] with i := 0xFFFF } : State).i.toNat + (({ regs [(2, 1)] with i := 0xFFFF } : State).reg 2).toNat ∧
    ({ regs [(2, 1)] with i := 0xFFFE } : State).i.toNat + (({ regs [(2, 1)] with i := 0xFFFE } : State).reg 2).toNat < 65536 := by decide

/-- I + 2 = 0xFFF and 0x1000. -/
theorem witness_BcdStoresThreeDigits :
    State.reset.mem.wf ∧ ({ State.reset with i := 0xFFD } : State).ea 2 ≤ 0xFFF ∧ 0xFFF < ({ State.reset with i := 0xFFE } : State).ea 2 := by
  decide

/-- I + 15 = 0xFFF and 0x1000. -/
theorem witness_StoreCopiesV0ToVx :
    State.reset.mem.wf ∧ ({ State.reset with i := 0xFF0 } : State).ea (15 : Nibble).toNat ≤ 0xFFF ∧
    0xFFF < ({ State.reset with i := 0xFF1 } : State).ea (15 : Nibble).toNat := by decide

/-- As for the store, and a register below and one above x = 1. -/
theorem witness_LoadFillsV0ToVx :
    ({ State.reset with i := 0xFF0 } : State).ea (15 : Nibble).toNat ≤ 0xFFF ∧
    0xFFF < ({ State.reset with i := 0xFF1 } : State).ea (15 : Nibble).toNat ∧
    (1 : Nibble).toNat ≤ (1 : Nibble).toNat ∧ (1 : Nibble).toNat < (2 : Nibble).toNat := by decide

/-- The memory the store leaves is that of a state u. -/
theorem witness_LoadUndoesStore :
    ({ regs [(0, 9)] with i := 0x400 } : State).mem.wf ∧ ({ regs [(0, 9)] with i := 0x400 } : State).ea (0 : Nibble).toNat ≤ 0xFFF ∧
    see (fun t => (t.mem, t.i)) (exec (.storeRegs 0) { regs [(0, 9)] with i := 0x400 }) =
      some (({ State.reset with mem := [(0x400, 9)], i := 0x400 } : State).mem, 0x400) := by decide

/-- P5: F155 at I = 0x208, then a fetch at 0x208. -/
theorem witness_StoredBytesAreFetched :
    ({ regs [(0, 0x12), (1, 0x08)] with i := 0x208 } : State).mem.wf ∧
    ({ regs [(0, 0x12), (1, 0x08)] with i := 0x208 } : State).ea (1 : Nibble).toNat ≤ 0xFFF ∧
    (1 : Nibble).toNat = (0 : Nibble).toNat + 1 ∧
    see (·.mem) (exec (.storeRegs 1) { regs [(0, 0x12), (1, 0x08)] with i := 0x208 }) = some [(0x208, 0x12), (0x209, 0x08)] ∧
    ({ State.reset with pc := 0x208, mem := [(0x208, 0x12), (0x209, 0x08)] } : State).pc.toNat =
      ({ regs [(0, 0x12), (1, 0x08)] with i := 0x208 } : State).ea (0 : Nibble).toNat := by decide

/-- n = 0 with I beyond memory, the last row at 0xFFF, and one row beyond it. -/
theorem witness_DrawInvertsTheSpriteCells :
    (0 : Nibble).toNat = 0 ∧ ({ State.reset with i := 0xFF1 } : State).ea ((15 : Nibble).toNat - 1) ≤ 0xFFF ∧
    (0 < (15 : Nibble).toNat ∧ 0xFFF < ({ State.reset with i := 0xFF2 } : State).ea ((15 : Nibble).toNat - 1)) := by decide

/-- The sprite C3 at column 62 reaches columns 62 and 5 but not 0. -/
theorem witness_DrawInvertsTheSpriteCells_cells :
    let s : State := { regs [(0, 62), (1, 31)] with i := 0x20E, mem := [(0x20E, 0xC3)] }
    InSprite s 0 1 1 31 62 ∧ InSprite s 0 1 1 31 5 ∧ ¬ InSprite s 0 1 1 31 0 :=
  ⟨⟨0, by decide, 0, by decide, by decide, by decide, by decide⟩, ⟨0, by decide, 7, by decide, by decide, by decide, by decide⟩, by
    rintro ⟨r, hr, h⟩
    obtain rfl : r = 0 := by simpa using hr
    revert h
    decide⟩

/-- Whatever the first drawing leaves, some state u has its framebuffer and the operands of the first. -/
theorem witness_DrawTwiceRestoresThePixels :
    ({ State.reset with i := 0xFF1 } : State).ea ((15 : Nibble).toNat - 1) ≤ 0xFFF ∧
    ∀ t : State, ∃ u : State, u.fb = t.fb ∧ u.mem = State.reset.mem ∧ u.i = 0xFF1 ∧
      u.reg 0 = State.reset.reg 0 ∧ u.reg 1 = State.reset.reg 1 :=
  ⟨by decide, fun t => ⟨{ State.reset with fb := t.fb, i := 0xFF1 }, rfl, rfl, rfl, rfl, rfl⟩⟩

theorem witness_TimersAreReadAndSet :
    (atPc { State.reset with dt := 0x1F } 0xF307).running ∧
    (atPc { State.reset with dt := 0x1F } 0xF307).nextInstr = some (.ldVxDt 3) := by decide

/-- Key 15, the highest, down and up, and the number 16. -/
theorem witness_KeySkipsTestTheNamedKey :
    ((regs [(5, 15)]).reg 5).toNat = (15 : Fin 16).val ∧ (press [15])[(15 : Fin 16)] = true ∧ (press [])[(15 : Fin 16)] = false ∧
    15 < ((regs [(5, 16)]).reg 5).toNat := by decide

end Sys2Proof.Tests
end

/-! ### What an instruction does, said once

`effect i s` is the state in which instruction i completes; `exec_eq` ties it to `exec`, the faults being those of `faultOf`.
The facts about instructions below go through these two. -/

namespace Sys2Proof.Machine

/-- The state an instruction leaves where it meets no fault (`exec_eq`). -/
def effect (s : State) : Instr → State
  | .cls => ((s.setFb Framebuffer.blank).setChanged true).advance
  | .ret => (s.setStk s.stk.dropLast).setPc (s.stk.getLast?.getD s.pc)
  | .sys _ => s.advance
  | .jp nnn => s.setPc (zext16 nnn)
  | .call nnn => (s.setStk (s.stk ++ [s.pc + 2])).setPc (zext16 nnn)
  | .seImm x nn => s.skipIf (s.reg x == nn)
  | .sneImm x nn => s.skipIf (s.reg x != nn)
  | .seReg x y => s.skipIf (s.reg x == s.reg y)
  | .ldImm x nn => (s.setReg x nn).advance
  | .addImm x nn => (s.setReg x (s.reg x + nn)).advance
  | .ldReg x y => (s.setReg x (s.reg y)).advance
  | .orReg x y => (s.setReg x (s.reg x ||| s.reg y)).advance
  | .andReg x y => (s.setReg x (s.reg x &&& s.reg y)).advance
  | .xorReg x y => (s.setReg x (s.reg x ^^^ s.reg y)).advance
  | .addReg x y => (s.writeFlagged x (addWithCarry (s.reg x) (s.reg y))).advance
  | .subReg x y => (s.writeFlagged x (subNotBorrow (s.reg x) (s.reg y))).advance
  | .shr x _ => (s.writeFlagged x (shiftRightOut (s.reg x))).advance
  | .subnReg x y => (s.writeFlagged x (subNotBorrow (s.reg y) (s.reg x))).advance
  | .shl x _ => (s.writeFlagged x (shiftLeftOut (s.reg x))).advance
  | .sneReg x y => s.skipIf (s.reg x != s.reg y)
  | .ldI nnn => (s.setI (zext16 nnn)).advance
  | .jpV0 nnn => s.setPc (zext16 nnn + (s.reg 0).setWidth 16)
  | .rnd x nn => ((s.setReg x (s.drawn &&& nn)).useDraw).advance
  | .drw x y n =>
    let d := drawSprite s.mem (s.ea 0) (s.reg x) (s.reg y) n.toNat (s.fb, false)
    (((s.setFb d.1).setReg vf (flagByte d.2)).setChanged true).advance
  | .skp x => s.skipIf (s.keyDown (s.reg x))
  | .sknp x => s.skipIf (!s.keyDown (s.reg x))
  | .ldVxDt x => (s.setReg x s.dt).advance
  | .ldVxK x => ((s.setWait true).setWaitReg x).advance
  | .ldDtVx x => (s.setDt (s.reg x)).advance
  | .ldStVx x => (s.setSt (s.reg x)).advance
  | .addIVx x => ((s.setI (addToIndex s.i (s.reg x)).1).setReg vf (addToIndex s.i (s.reg x)).2).advance
  | .ldFVx x => (s.setI (glyphAddress (s.reg x))).advance
  | .ldBVx x => (s.setMem (s.mem.writeBytes (s.ea 0) (bcdDigits (s.reg x)))).advance
  | .storeRegs x => (s.setMem (s.mem.writeBytes (s.ea 0) (s.regBlock x))).advance
  | .loadRegs x => (s.setRegs (s.loadedBlock x)).advance

/-- A guard whose check is the negation of a fault condition takes the fault exactly under that condition. -/
theorem State.guard_eq_elim (s t : State) {ok : Bool} {c : Prop} [Decidable c] (f : Fault) (h : ok = true ↔ ¬ c) :
    s.guard ok f t = .next ((if c then some f else none).elim t s.raise) := by
  rw [State.guard_eq]
  by_cases hc : c <;> simp [hc, h]

/-- Every instruction answers a next state: its effect, or the fault that `faultOf` names taken from the state before. -/
theorem exec_eq (i : Instr) (s : State) : exec i s = .next ((faultOf s i).elim (effect s i) s.raise) := by
  cases i
  case ret =>
    rcases List.eq_nil_or_concat s.stk with h | ⟨k, a, h⟩ <;> simp [exec, execRet, faultOf, effect, h]
  case call nnn => exact s.guard_eq_elim _ _ (by simp)
  case drw x y n => exact s.guard_eq_elim _ _ (by rw [State.blockOk_iff]; omega)
  case skp x => exact s.guard_eq_elim _ _ (by simp)
  case sknp x => exact s.guard_eq_elim _ _ (by simp)
  case ldBVx x => exact s.guard_eq_elim _ _ (by rw [State.blockOk_iff]; omega)
  case storeRegs x => exact s.guard_eq_elim _ _ (by rw [State.blockOk_iff]; omega)
  case loadRegs x => exact s.guard_eq_elim _ _ (by rw [State.blockOk_iff]; omega)
  all_goals rfl

theorem exec_of_noFault {i : Instr} {s : State} (h : faultOf s i = none) : exec i s = .next (effect s i) := by
  rw [exec_eq, h]; rfl

/-! ### The frame of an instruction -/

section

variable {s t u : State} {ps qs : List Part}

theorem OnlyChanges.trans (h : OnlyChanges ps s t) (h' : OnlyChanges qs t u) : OnlyChanges (ps ++ qs) s u := by
  intro p hp
  rw [List.mem_append, not_or] at hp
  have hst := h p hp.1
  have htu := h' p hp.2
  cases p <;> simp only [Same] at hst htu ⊢ <;> simp [hst, htu]

theorem OnlyChanges.mono (h : OnlyChanges ps s t) (hsub : ps ⊆ qs) : OnlyChanges qs s t :=
  fun p hp => h p fun hm => hp (hsub hm)

theorem onlyChanges_setReg (s : State) (x : Nibble) (b : Byte) : OnlyChanges [.v] s (s.setReg x b) := by
  intro p hp; cases p <;> simp [Same] at hp ⊢

theorem onlyChanges_writeFlagged (s : State) (x : Nibble) (r : Byte × Byte) :
    OnlyChanges [.v] s (s.writeFlagged x r) := by
  intro p hp; cases p <;> simp [Same] at hp ⊢

theorem onlyChanges_setRegs (s : State) (v : Vector Byte 16) : OnlyChanges [.v] s (s.setRegs v) := by
  intro p hp; cases p <;> simp [Same] at hp ⊢

theorem onlyChanges_setI (s : State) (a : Word) : OnlyChanges [.i] s (s.setI a) := by
  intro p hp; cases p <;> simp [Same] at hp ⊢

theorem onlyChanges_setPc (s : State) (a : Word) : OnlyChanges [.pc] s (s.setPc a) := by
  intro p hp; cases p <;> simp [Same] at hp ⊢

theorem onlyChanges_advance (s : State) : OnlyChanges [.pc] s s.advance := onlyChanges_setPc s _

theorem onlyChanges_skipIf (s : State) (c : Bool) : OnlyChanges [.pc] s (s.skipIf c) := onlyChanges_setPc s _

theorem onlyChanges_setStk (s : State) (k : List Word) : OnlyChanges [.stk] s (s.setStk k) := by
  intro p hp; cases p <;> simp [Same] at hp ⊢

theorem onlyChanges_setDt (s : State) (b : Byte) : OnlyChanges [.dt] s (s.setDt b) := by
  intro p hp; cases p <;> simp [Same] at hp ⊢

theorem onlyChanges_setSt (s : State) (b : Byte) : OnlyChanges [.st] s (s.setSt b) := by
  intro p hp; cases p <;> simp [Same] at hp ⊢

theorem onlyChanges_setWait (s : State) (w : Bool) : OnlyChanges [.wait] s (s.setWait w) := by
  intro p hp; cases p <;> simp [Same] at hp ⊢

theorem onlyChanges_setWaitReg (s : State) (x : Nibble) : OnlyChanges [.waitReg] s (s.setWaitReg x) := by
  intro p hp; cases p <;> simp [Same] at hp ⊢

theorem onlyChanges_setFb (s : State) (f : Framebuffer) : OnlyChanges [.fb] s (s.setFb f) := by
  intro p hp; cases p <;> simp [Same] at hp ⊢

theorem onlyChanges_setChanged (s : State) (c : Bool) : OnlyChanges [.changed] s (s.setChanged c) := by
  intro p hp; cases p <;> simp [Same] at hp ⊢

theorem onlyChanges_setMem (s : State) (m : Memory) : OnlyChanges [.mem] s (s.setMem m) := by
  intro p hp; cases p <;> simp [Same] at hp ⊢

theorem onlyChanges_useDraw (s : State) : OnlyChanges [.drawNo] s s.useDraw := by
  intro p hp; cases p <;> simp [Same] at hp ⊢

/-- A write of some element followed by the default advance. -/
theorem OnlyChanges.advance (h : OnlyChanges ps s t) : OnlyChanges (ps ++ [.pc]) s t.advance :=
  h.trans (onlyChanges_advance t)

end

/-- An effect writes what its updates write, one after the other. -/
theorem onlyChanges_effect (i : Instr) (s : State) : OnlyChanges (mayWrite i) s (effect s i) := by
  cases i
  case cls => exact ((onlyChanges_setFb s _).trans (onlyChanges_setChanged _ _)).advance
  case ret | call => exact (onlyChanges_setStk s _).trans (onlyChanges_setPc _ _)
  case jp | jpV0 => exact onlyChanges_setPc s _
  case sys => exact onlyChanges_advance s
  case seImm | sneImm | seReg | sneReg | skp | sknp => exact onlyChanges_skipIf s _
  case ldImm | addImm | ldReg | orReg | andReg | xorReg | ldVxDt => exact (onlyChanges_setReg s _ _).advance
  case addReg | subReg | shr | subnReg | shl => exact (onlyChanges_writeFlagged s _ _).advance
  case rnd => exact ((onlyChanges_setReg s _ _).trans (onlyChanges_useDraw _)).advance.mono (by simp [mayWrite])
  case ldI | ldFVx => exact (onlyChanges_setI s _).advance
  case addIVx =>
    exact ((onlyChanges_setI s _).trans (onlyChanges_setReg _ _ _)).advance.mono (by simp [mayWrite])
  case drw =>
    exact (((onlyChanges_setFb s _).trans (onlyChanges_setReg _ _ _)).trans (onlyChanges_setChanged _ _)).advance.mono
      (by simp [mayWrite])
  case ldBVx | storeRegs => exact (onlyChanges_setMem s _).advance
  case loadRegs => exact (onlyChanges_setRegs s _).advance
  case ldDtVx => exact (onlyChanges_setDt s _).advance
  case ldStVx => exact (onlyChanges_setSt s _).advance
  case ldVxK => exact ((onlyChanges_setWait s _).trans (onlyChanges_setWaitReg _ _)).advance

/-- Settles O29: each instruction completes in its effect, whose frame is that of the updates it is made of. -/
theorem instructionsWriteOnlyTheirElements : Obligations.InstructionsWriteOnlyTheirElements :=
  fun i s h => ⟨effect s i, exec_of_noFault h, onlyChanges_effect i s⟩

/-! ### The program counter after an instruction -/

/-- A skip whose condition is the proposition c. -/
theorem State.skipIf_pc_eq_ite (s : State) {b : Bool} {c : Prop} [Decidable c] (h : b = true ↔ c) :
    (s.skipIf b).pc = if c then s.pc + 4 else s.pc + 2 := by
  by_cases hc : c <;> simp [hc, h]

theorem zext16_eq_ofNat (nnn : Addr) : zext16 nnn = BitVec.ofNat 16 nnn.toNat := by
  apply BitVec.eq_of_toNat_eq
  have := nnn.isLt
  rw [zext16_toNat, BitVec.toNat_ofNat]; omega

theorem jumpSum_eq_ofNat (nnn : Addr) (b : Byte) :
    zext16 nnn + b.setWidth 16 = BitVec.ofNat 16 (nnn.toNat + b.toNat) := by
  apply BitVec.eq_of_toNat_eq
  rw [BitVec.toNat_add, zext16_toNat, BitVec.toNat_setWidth, BitVec.toNat_ofNat]; omega

/-- The key test of SKP, in the form of `pcAfter`, for a key number that names a key. -/
theorem State.keyDown_eq_iff (s : State) {b : Byte} (h : b.toNat ≤ 15) (d : Bool) :
    s.keyDown b = d ↔ s.keys[b.toNat]? = some d := by
  rw [s.keyDown_of_le (by omega), Vector.getElem?_eq_getElem (by omega), Option.some_inj]

theorem keyIndex_le_of_noFault {x : Nibble} (h : faultOf s (.skp x) = none) : (s.reg x).toNat ≤ 15 := by
  simpa [faultOf] using h

/-- The effect leaves PC as its class says (10_state.md R24). -/
theorem effect_pc (i : Instr) (s : State) (h : faultOf s i = none) : (effect s i).pc = pcAfter s i := by
  cases i
  case seImm | seReg => exact s.skipIf_pc_eq_ite beq_iff_eq
  case sneImm | sneReg => exact s.skipIf_pc_eq_ite bne_iff_ne
  case skp x => exact s.skipIf_pc_eq_ite (s.keyDown_eq_iff (keyIndex_le_of_noFault h) true)
  case sknp x =>
    exact s.skipIf_pc_eq_ite (Bool.not_eq_true' _ ▸ s.keyDown_eq_iff (keyIndex_le_of_noFault h) false)
  case jp nnn | call nnn => exact zext16_eq_ofNat nnn
  case jpV0 nnn => exact jumpSum_eq_ofNat nnn _
  all_goals rfl

/-- Settles O30: by the effect of the instruction, and for an unrecognised word by the cycle that leaves the state as it is. -/
theorem pcFollowsItsClass : Obligations.PcFollowsItsClass := by
  refine ⟨fun i s h => ⟨effect s i, exec_of_noFault h, effect_pc i s h⟩, fun s op hf hd => ?_⟩
  exact ⟨s, by simp [cycle, hf, hd, execUnrecognised], rfl⟩

/-! ### The registers after an instruction -/

/-- A register that is no destination, and is not VF in a flag writer, is not written. -/
theorem effect_reg_of_not_destination (i : Instr) (s : State) (r : Nibble) (hd : isDestination r i = false)
    (hf : r ≠ 15 ∨ writesFlag i = false) : (effect s i).reg r = s.reg r := by
  by_cases hv : .v ∈ mayWrite i
  · cases i
    case ldImm | addImm | ldReg | orReg | andReg | xorReg | rnd | ldVxDt =>
      have hx := beq_eq_false_iff_ne.mp hd
      simp [effect, hx]
    case addReg | subReg | shr | subnReg | shl =>
      have hx := beq_eq_false_iff_ne.mp hd
      have hvf : r ≠ vf := hf.resolve_right nofun
      simp only [effect, State.advance_reg, State.reg_writeFlagged, if_neg hvf, if_neg hx]
    case addIVx | drw =>
      have hvf : r ≠ vf := hf.resolve_right nofun
      simp only [effect, State.advance_reg, State.setChanged_reg, State.reg_setReg, if_neg hvf, State.setI_reg,
        State.setFb_reg]
    case loadRegs x =>
      have hx : ¬ r.toNat ≤ x.toNat := of_decide_eq_false hd
      simp [effect, hx, State.reg]
    all_goals simp [mayWrite] at hv
  · exact onlyChanges_effect i s .v hv r

/-- A flag writer leaves a flag byte in VF, written last (41_alu.md R152 (d), (e)). -/
theorem effect_flag (i : Instr) (s : State) (h : writesFlag i = true) : ∃ b, (effect s i).reg 15 = flagByte b := by
  cases i
  case addReg | subReg | shr | subnReg | shl => exact ⟨_, State.reg_writeFlagged _ _ vf _⟩
  case addIVx | drw => exact ⟨_, State.reg_setReg _ vf vf _⟩
  all_goals simp [writesFlag] at h

/-- Settles O31: by the registers the effect writes, and the flag byte it writes last. -/
theorem onlyFlagWritersTouchVf : Obligations.OnlyFlagWritersTouchVf := by
  refine fun i s h => ⟨effect s i, exec_of_noFault h, effect_reg_of_not_destination i s, fun hw => ?_⟩
  obtain ⟨b, hb⟩ := effect_flag i s hw
  rw [hb]
  exact flagByte_cases b

/-! ### KEYS -/

theorem faultOf_keys (i : Instr) (s : State) (k : Keys) : faultOf { s with keys := k } i = faultOf s i := by
  cases i <;> rfl

/-- But for the key skips, an effect takes a change of KEYS through unseen. -/
theorem effect_keys (i : Instr) (s : State) (k : Keys) (h : ∀ x, i ≠ .skp x ∧ i ≠ .sknp x) :
    effect { s with keys := k } i = { effect s i with keys := k } := by
  cases i
  case skp x => exact absurd rfl (h x).1
  case sknp x => exact absurd rfl (h x).2
  all_goals rfl

theorem keys_not_mem_mayWrite (i : Instr) : .keys ∉ mayWrite i := by
  cases i <;> simp [mayWrite]

/-- Settles O33: the fault does not depend on KEYS, the effect takes KEYS through, and so does a fault. -/
theorem onlyKeySkipsReadKeys : Obligations.OnlyKeySkipsReadKeys := by
  intro i s k h
  refine ⟨_, exec_eq i s, ?_, ?_⟩
  · cases faultOf s i with
    | none => exact onlyChanges_effect i s .keys (keys_not_mem_mayWrite i)
    | some f => rfl
  · rw [exec_eq, faultOf_keys, effect_keys i s k h]
    cases faultOf s i <;> rfl

/-! ### The invariant -/

section

variable {s t : State}

/-- The invariant speaks of six elements only. -/
theorem State.Inv.of_eq (h : s.Inv) (hmem : t.mem = s.mem) (hstk : t.stk = s.stk) (hpc : t.pc = s.pc)
    (hhalt : t.halt = s.halt) (hcause : t.cause = s.cause) (hwait : t.wait = s.wait) : t.Inv where
  memory := hmem ▸ h.memory
  depth := hstk ▸ h.depth
  returns := hstk ▸ h.returns
  target := hpc ▸ h.target
  causeOfHalt := by rw [hhalt, hcause]; exact h.causeOfHalt
  oneStop := by rw [hhalt, hwait]; exact h.oneStop

/-- A fault taken where no key-wait is latched keeps the invariant. -/
theorem State.Inv.raise (h : s.Inv) (hw : s.wait = false) (f : Fault) : (s.raise f).Inv where
  memory := h.memory
  depth := h.depth
  returns := h.returns
  target := h.target
  causeOfHalt := by simp
  oneStop := fun _ => hw

/-- Delivering a key only ends the wait. -/
theorem State.Inv.serveKeyWait (h : s.Inv) : s.serveKeyWait.Inv := by
  cases hk : leastPressed s.keys with
  | none => rwa [s.serveKeyWait_none hk]
  | some j =>
    rw [s.serveKeyWait_some hk]
    exact { h with oneStop := fun _ => rfl }

theorem halt_not_mem_mayWrite (i : Instr) : .halt ∉ mayWrite i := by
  cases i <;> simp [mayWrite]

theorem cause_not_mem_mayWrite (i : Instr) : .cause ∉ mayWrite i := by
  cases i <;> simp [mayWrite]

/-- The two block stores stay within memory when they meet no fault; no other instruction writes memory. -/
theorem effect_mem_wf (i : Instr) (hf : faultOf s i = none) (h : s.mem.wf) : (effect s i).mem.wf := by
  cases i
  case ldBVx x =>
    have hb : s.i.toNat + 2 ≤ 0xFFF := by simpa [faultOf] using hf
    exact Memory.wf_writeBytes h (by simp only [State.ea, bcdDigits_length]; omega)
  case storeRegs x =>
    have hb : s.i.toNat + x.toNat ≤ 0xFFF := by simpa [faultOf] using hf
    exact Memory.wf_writeBytes h (by simp only [State.ea, State.regBlock_length]; omega)
  all_goals exact h

/-- RET and CALL keep the stack's bounds, CALL because it runs from a fetched word; no other instruction writes the stack. -/
theorem effect_stk_bounds (i : Instr) (hf : faultOf s i = none) (hpc : s.pc.toNat ≤ 0xFFE) (hd : s.stk.length ≤ 16)
    (hr : ∀ a ∈ s.stk, a.toNat ≤ 0x1000) :
    (effect s i).stk.length ≤ 16 ∧ ∀ a ∈ (effect s i).stk, a.toNat ≤ 0x1000 := by
  by_cases hs : .stk ∈ mayWrite i
  · cases i
    case ret =>
      refine ⟨?_, fun a ha => hr a (List.dropLast_subset _ ha)⟩
      simp only [effect, State.setPc_stk, State.setStk_stk, List.length_dropLast]; omega
    case call nnn =>
      have hlen : s.stk.length < 16 := by simpa [faultOf] using hf
      have hnew : (s.pc + 2).toNat ≤ 0x1000 := by bv_omega
      simp only [effect, State.setPc_stk, State.setStk_stk, List.length_append, List.length_singleton,
        List.forall_mem_append, List.forall_mem_singleton]
      exact ⟨by omega, hr, hnew⟩
    all_goals simp [mayWrite] at hs
  · have hstk : (effect s i).stk = s.stk := onlyChanges_effect i s .stk hs
    rw [hstk]
    exact ⟨hd, hr⟩

/-- From a PC a word can be fetched from, no class of R24 leads beyond 0x10FE, the largest target of JP V0. -/
theorem pcAfter_le (i : Instr) (hpc : s.pc.toNat ≤ 0xFFE) (hr : ∀ a ∈ s.stk, a.toNat ≤ 0x1000) :
    (pcAfter s i).toNat ≤ 0x10FE := by
  have h2 : (s.pc + 2).toNat ≤ 0x10FE := by bv_omega
  have h4 : (s.pc + 4).toNat ≤ 0x10FE := by bv_omega
  cases i
  case seImm | sneImm | seReg | sneReg | skp | sknp =>
    simp only [pcAfter]
    split
    · exact h4
    · exact h2
  case jp nnn | call nnn => simp only [pcAfter, BitVec.toNat_ofNat]; omega
  case jpV0 nnn => simp only [pcAfter, BitVec.toNat_ofNat]; omega
  case ret =>
    simp only [pcAfter]
    cases hl : s.stk.getLast? with
    | none => simp only [Option.getD_none]; omega
    | some a =>
      have := hr a (List.mem_of_getLast? hl)
      simp only [Option.getD_some]; omega
  all_goals exact h2

/-- An instruction run from a fetched word in a running core keeps the invariant, whether it completes or faults. -/
theorem exec_keeps_inv (i : Instr) (h : s.Inv) (hrun : s.running) (hpc : s.pc.toNat ≤ 0xFFE) :
    ∃ t, exec i s = .next t ∧ t.Inv := by
  refine ⟨_, exec_eq i s, ?_⟩
  cases hf : faultOf s i with
  | some f => exact h.raise hrun.2 f
  | none =>
    have hhalt : (effect s i).halt = s.halt := onlyChanges_effect i s .halt (halt_not_mem_mayWrite i)
    have hcause : (effect s i).cause = s.cause := onlyChanges_effect i s .cause (cause_not_mem_mayWrite i)
    obtain ⟨hdepth, hreturns⟩ := effect_stk_bounds i hf hpc h.depth h.returns
    exact {
      memory := effect_mem_wf i hf h.memory
      depth := hdepth
      returns := hreturns
      target := effect_pc i s hf ▸ pcAfter_le i hpc h.returns
      causeOfHalt := by rw [Option.elim_none, hhalt, hcause]; exact h.causeOfHalt
      oneStop := fun ht => by rw [Option.elim_none, hhalt, hrun.1] at ht; cases ht }

/-- An instruction is only found at a PC of at most 0xFFE (20_memory.md R63). -/
theorem pc_le_of_nextInstr {i : Instr} (h : s.nextInstr = some i) : s.pc.toNat ≤ 0xFFE := by
  obtain ⟨op, hf, -⟩ := s.nextInstr_eq_some.mp h
  rw [State.fetch_eq] at hf
  split at hf
  · omega
  · cases hf

/-- Every frame step, under any keys, answers a next state and keeps the invariant. -/
theorem frameStep_keeps_inv (k : Keys) (h : s.Inv) : ∃ t, frameStep k s = .next t ∧ t.Inv := by
  have hbegin : (s.beginFrame k).Inv := h.of_eq rfl rfl rfl rfl rfl rfl
  have hbefore : (s.beforeCycle k).Inv := h.of_eq rfl rfl rfl rfl rfl rfl
  obtain ⟨-, e⟩ | ⟨-, -, e⟩ | ⟨hrun, i, hi, e⟩ | ⟨hrun, -, e⟩ | ⟨-, -, -, e⟩ := frameStep_cases s k
  · exact ⟨_, e, h⟩
  · exact ⟨_, e, hbegin.serveKeyWait⟩
  · rw [e]
    exact exec_keeps_inv i hbefore hrun (pc_le_of_nextInstr hi)
  · exact ⟨_, e, hbefore.raise hrun.2 _⟩
  · exact ⟨_, e, hbefore⟩

end

/-- Settles O24: a step is a frame step under the host's keys. -/
theorem everyStepKeepsTheInvariant : Obligations.EveryStepKeepsTheInvariant := by
  intro s t h hst
  obtain ⟨t', e, ht'⟩ := frameStep_keeps_inv (Config.keysIn s.frameNo) h
  obtain rfl : t' = t := Host.Outcome.next.inj (e.symm.trans hst)
  exact ht'

/-- What every frame step keeps, every run keeps, and the run ends in a next state. -/
theorem runFrames_keeps {P : State → Prop} (hstep : ∀ k s, P s → ∃ t, frameStep k s = .next t ∧ P t)
    (ks : List Keys) (s : State) (h : P s) : ∃ t, runFrames ks s = .next t ∧ P t := by
  induction ks generalizing s with
  | nil => exact ⟨s, rfl, h⟩
  | cons k ks ih =>
    obtain ⟨t, e, ht⟩ := hstep k s h
    simp only [runFrames, e]
    exact ih t ht

/-- A loaded program lies within memory, and everything else is at its reset value. -/
theorem boot_inv (rom : List Byte) : (boot rom).Inv where
  memory := Memory.wf_writeBytes State.reset_mem_wf (by rw [List.length_take]; omega)
  depth := Nat.zero_le 16
  returns := nofun
  target := by simp [boot, State.reset]
  causeOfHalt := by simp [boot, State.reset]
  oneStop := nofun

/-- Settles O26, by induction on the key inputs: it holds after the load, and every frame step keeps it. -/
theorem everyRunMeetsTheInvariant : Obligations.EveryRunMeetsTheInvariant :=
  fun rom ks => runFrames_keeps (fun k _ h => frameStep_keeps_inv k h) ks (boot rom) (boot_inv rom)

end Sys2Proof.Machine

/-! ### The fetch, and the bytes a block store leaves for it -/

namespace Sys2Proof.Machine

section

variable {s : State}

theorem State.fetch_eq_some_of_le (h : s.pc.toNat + 1 ≤ 0xFFF) :
    s.fetch = some (s.mem.read s.pc.toNat ++ s.mem.read (s.pc.toNat + 1)) :=
  s.fetch_eq.trans (if_pos h)

theorem State.fetch_eq_none_of_le (h : 0xFFF ≤ s.pc.toNat) : s.fetch = none :=
  s.fetch_eq.trans (if_neg (by omega))

theorem cycle_of_fetch_none (h : s.fetch = none) : cycle s = .next (s.raise .fetchBounds) := by
  simp [cycle, h]

/-- A block store meets no fault when the cell of its last register lies in memory (42_index_memory.md R174). -/
theorem faultOf_storeRegs_of_le {x : Nibble} (h : s.ea x.toNat ≤ 0xFFF) : faultOf s (.storeRegs x) = none :=
  if_neg (Nat.not_lt.mpr h)

/-- After a block store within memory, the cell at I + r holds V[r] (42_index_memory.md R174). -/
theorem effect_storeRegs_read {x r : Nibble} (hm : s.mem.wf) (hx : s.ea x.toNat ≤ 0xFFF) (hr : r.toNat ≤ x.toNat) :
    (effect s (.storeRegs x)).mem.read (s.ea r.toNat) = s.reg r := by
  have hfits : s.ea 0 + (s.regBlock x).length ≤ 0x1000 := by
    simp only [State.ea, State.regBlock_length] at hx ⊢; omega
  have hoffset : s.ea r.toNat - s.ea 0 = r.toNat := by simp only [State.ea]; omega
  have hin : s.ea 0 ≤ s.ea r.toNat ∧ s.ea r.toNat - s.ea 0 < (s.regBlock x).length := by
    rw [hoffset, State.regBlock_length]; simp only [State.ea]; omega
  calc (s.mem.writeBytes (s.ea 0) (s.regBlock x)).read (s.ea r.toNat)
    _ = (s.regBlock x)[s.ea r.toNat - s.ea 0] := by rw [Memory.read_writeBytes hm hfits, dif_pos hin]
    _ = s.reg r := by simp only [hoffset, State.regBlock_get, State.reg]

end

/-- Settles O10: the fetch where both bytes lie in memory, and the cycle where it finds no word. -/
theorem fetchIsBigEndianOrFaults : Obligations.FetchIsBigEndianOrFaults := by
  refine ⟨fun s h => ⟨_, State.fetch_eq_some_of_le h, toNat_append_eq _ _⟩, fun s h => ?_⟩
  have hnone := State.fetch_eq_none_of_le h
  exact ⟨hnone, cycle_of_fetch_none hnone⟩

/-- Settles O50: the fetch reads the cells at I + r and I + r + 1, where the store left V[r] and V[r + 1]. -/
theorem storedBytesAreFetched : Obligations.StoredBytesAreFetched := by
  intro x r q s hm hx hq hqr
  refine ⟨_, exec_of_noFault (faultOf_storeRegs_of_le hx), fun u hmem hpc => ?_⟩
  have hnext : u.pc.toNat + 1 = s.ea q.toNat := by rw [hpc, hqr]; rfl
  have hle : u.pc.toNat + 1 ≤ 0xFFF := by
    rw [hnext]; exact (Nat.add_le_add_left hq _).trans hx
  rw [State.fetch_eq_some_of_le hle, hnext, hpc, hmem, effect_storeRegs_read hm hx (by omega),
    effect_storeRegs_read hm hx hq]

end Sys2Proof.Machine

/-! ### Decoding the encoder's words (30_encoding.md R94, R95)

The decoder and the encoder meet in the rows of the opcode table: the word of an instruction matches its row (`exists_row`), and the
decoder gives a word the instruction of a row it matches (`decodeWord_of_row`). -/

namespace Sys2Proof

section

variable {op : Word} {r : OpcodeRow}

open Laws.RowMatch in
/-- Every instruction has a row of R95 that its word matches and that builds it from that word. -/
theorem exists_row (i : Instr) : ∃ r ∈ opcodeRows, encode i &&& r.mask = r.bits ∧ r.build (encode i) = i := by
  have hrow : ∃ k, Holds k i := by
    cases i
    exacts [⟨_, cls⟩, ⟨_, ret⟩, ⟨_, sys _⟩, ⟨_, jp _⟩, ⟨_, call _⟩, ⟨_, seImm _ _⟩, ⟨_, sneImm _ _⟩, ⟨_, seReg _ _⟩,
      ⟨_, ldImm _ _⟩, ⟨_, addImm _ _⟩, ⟨_, ldReg _ _⟩, ⟨_, orReg _ _⟩, ⟨_, andReg _ _⟩, ⟨_, xorReg _ _⟩,
      ⟨_, addReg _ _⟩, ⟨_, subReg _ _⟩, ⟨_, shr _ _⟩, ⟨_, subnReg _ _⟩, ⟨_, shl _ _⟩, ⟨_, sneReg _ _⟩, ⟨_, ldI _⟩,
      ⟨_, jpV0 _⟩, ⟨_, rnd _ _⟩, ⟨_, drw _ _ _⟩, ⟨_, skp _⟩, ⟨_, sknp _⟩, ⟨_, ldVxDt _⟩, ⟨_, ldVxK _⟩, ⟨_, ldDtVx _⟩,
      ⟨_, ldStVx _⟩, ⟨_, addIVx _⟩, ⟨_, ldFVx _⟩, ⟨_, ldBVx _⟩, ⟨_, storeRegs _⟩, ⟨_, loadRegs _⟩]
  obtain ⟨k, r, hk, hmatch, hbuild⟩ := hrow
  exact ⟨r, List.mem_of_getElem? hk, hmatch, hbuild⟩

/-- A well-formed SYS does not have the word of CLS or RET (R94). -/
theorem ne_of_sys_wellFormed (h : (Instr.sys (fieldNNN op)).wellFormed = true) : op ≠ 0x00E0 ∧ op ≠ 0x00EE := by
  constructor <;> rintro rfl <;> exact absurd h (by decide)

/-- A word that matches a row decodes to the row's instruction, if that is no SYS with the word of CLS or RET.
After CLS, RET and SYS, a row's match is the equation of the fields its mask keeps, and the decoder reads no others to dispatch. -/
theorem decodeWord_of_row (hr : r ∈ opcodeRows) (hmatch : op &&& r.mask = r.bits)
    (hsys : r.build op = .sys (fieldNNN op) → op ≠ 0x00E0 ∧ op ≠ 0x00EE) : decodeWord op = .ok (r.build op) := by
  fin_cases hr
  · obtain rfl := (and_FFFF_eq op _).mp hmatch
    rfl
  · obtain rfl := (and_FFFF_eq op _).mp hmatch
    rfl
  · obtain ⟨hcls, hret⟩ := hsys rfl
    have hd := (and_F000_eq op _ ⟨rfl, rfl, rfl⟩).mp hmatch
    simp only [decodeWord, hd]
    exact (if_neg hcls).trans (if_neg hret)
  all_goals
    simp (disch := decide) only [BitVec.ofNat_eq_ofNat, and_F000_eq, and_F00F_eq, and_F0FF_eq] at hmatch
    simp only [decodeWord, decodeAlu, decodeKey, decodeMisc, hmatch]
    rfl

theorem decodeWord_encode {i : Instr} (h : i.wellFormed = true) : decodeWord (encode i) = .ok i := by
  obtain ⟨r, hr, hmatch, hbuild⟩ := exists_row i
  have hrow : decodeWord (encode i) = .ok (r.build (encode i)) :=
    decodeWord_of_row hr hmatch fun hsys => ne_of_sys_wellFormed (by rwa [← hsys, hbuild])
  rw [hrow, hbuild]

end

/-- Settles O1: decoding from memory is decoding the word, and the word decodes by the instruction's own row. -/
theorem encodeThenDecodeIsIdentity : Obligations.EncodeThenDecodeIsIdentity := by
  intro i rest h
  rw [encodeBytes, decode_wordBytes, decodeWord_encode h]
  rfl

/-! ### What the decoder answers (30_encoding.md R94, R96)

`RightAnswer op` says once what an answer for op must be; one walk through the decoder's branches shows that its answer is one. -/

/-- The word is in the table of R96. -/
def InR96 (op : Word) : Prop :=
  (fieldD3 op = 0x5 ∧ fieldN op ≠ 0) ∨
  (fieldD3 op = 0x8 ∧ fieldN op ∈ [0x8, 0x9, 0xA, 0xB, 0xC, 0xD, 0xF]) ∨
  (fieldD3 op = 0x9 ∧ fieldN op ≠ 0) ∨
  (fieldD3 op = 0xE ∧ fieldNN op ∉ [0x9E, 0xA1]) ∨
  (fieldD3 op = 0xF ∧ fieldNN op ∉ [0x07, 0x0A, 0x15, 0x18, 0x1E, 0x29, 0x33, 0x55, 0x65])

/-- An instruction answered for op is one whose word is op, and only words of R96 are rejected. -/
def RightAnswer (op : Word) : Except Reject Instr → Prop
  | .ok i => i.wellFormed = true ∧ encode i = op ∧ ¬ InR96 op
  | .error e => e = .unrecognised op ∧ InR96 op

theorem eq_ofNat_of_toNat_eq {w k : Nat} {b : BitVec w} (h : b.toNat = k) : b = BitVec.ofNat w k := by
  rw [← h, BitVec.ofNat_toNat, BitVec.setWidth_eq]

section

variable {op : Word} {d : Nibble}

theorem wordNNN_of_fields (hd : fieldD3 op = d) : wordNNN d (fieldNNN op) = op := by
  rw [← hd, wordNNN_fields]

theorem wordXNN_of_fields {nn : Byte} (hd : fieldD3 op = d) (hnn : fieldNN op = nn) : wordXNN d (fieldX op) nn = op := by
  rw [← hd, ← hnn, wordXNN_fields]

theorem wordXYN_of_fields {n : Nibble} (hd : fieldD3 op = d) (hn : fieldN op = n) :
    wordXYN d (fieldX op) (fieldY op) n = op := by
  rw [← hd, ← hn, wordXYN_fields]

/-- SYS has every word of major opcode 0 but the two of CLS and RET (R94). -/
theorem sys_wellFormed (hd : fieldD3 op = 0x0) (hcls : op ≠ 0x00E0) (hret : op ≠ 0x00EE) :
    (Instr.sys (fieldNNN op)).wellFormed = true := by
  have hop : wordNNN 0x0 (fieldNNN op) = op := wordNNN_of_fields hd
  have hE0 : fieldNNN op ≠ 0x0E0 := fun h => hcls (by rw [← hop, h]; rfl)
  have hEE : fieldNNN op ≠ 0x0EE := fun h => hret (by rw [← hop, h]; rfl)
  simp only [Instr.wellFormed, Bool.and_eq_true, bne_iff_ne]
  exact ⟨hE0, hEE⟩

theorem rightAnswer_decodeAlu (hd : fieldD3 op = 0x8) : RightAnswer op (decodeAlu op) := by
  unfold decodeAlu
  split
  case h_10 =>
    have hlt := (fieldN op).isLt
    refine ⟨rfl, .inr (.inl ⟨hd, ?_⟩)⟩
    simp only [List.mem_cons, List.not_mem_nil, or_false, ← BitVec.toNat_inj, BitVec.reduceToNat, imp_false] at *
    omega
  all_goals
    have hn := eq_ofNat_of_toNat_eq ‹_›
    exact ⟨rfl, wordXYN_of_fields hd hn, by simp [InR96, hd, hn]⟩

theorem rightAnswer_decodeKey (hd : fieldD3 op = 0xE) : RightAnswer op (decodeKey op) := by
  unfold decodeKey
  split
  case h_3 => exact ⟨rfl, by simp_all [InR96, ← BitVec.toNat_inj]⟩
  all_goals
    have hnn := eq_ofNat_of_toNat_eq ‹_›
    exact ⟨rfl, wordXNN_of_fields hd hnn, by simp [InR96, hd, hnn]⟩

theorem rightAnswer_decodeMisc (hd : fieldD3 op = 0xF) : RightAnswer op (decodeMisc op) := by
  unfold decodeMisc
  split
  case h_10 => exact ⟨rfl, by simp_all [InR96, ← BitVec.toNat_inj]⟩
  all_goals
    have hnn := eq_ofNat_of_toNat_eq ‹_›
    exact ⟨rfl, wordXNN_of_fields hd hnn, by simp [InR96, hd, hnn]⟩

end

/-- The cases are the decoder's branches, branch h_k being that of major opcode k - 1, taken together by format (R92). -/
theorem rightAnswer_decodeWord (op : Word) : RightAnswer op (decodeWord op) := by
  unfold decodeWord
  split
  case h_1 h =>
    have hd := eq_ofNat_of_toNat_eq h
    have hno : ¬ InR96 op := by simp [InR96, hd]
    split_ifs with hcls hret
    · exact ⟨rfl, hcls.symm, hno⟩
    · exact ⟨rfl, hret.symm, hno⟩
    · exact ⟨sys_wellFormed hd hcls hret, wordNNN_of_fields hd, hno⟩
  case h_2 h | h_3 h | h_11 h | h_12 h =>
    have hd := eq_ofNat_of_toNat_eq h
    exact ⟨rfl, wordNNN_of_fields hd, by simp [InR96, hd]⟩
  case h_4 h | h_5 h | h_7 h | h_8 h | h_13 h =>
    have hd := eq_ofNat_of_toNat_eq h
    exact ⟨rfl, wordXNN_of_fields hd rfl, by simp [InR96, hd]⟩
  case h_6 h | h_10 h =>
    have hd := eq_ofNat_of_toNat_eq h
    split_ifs with hn
    · exact ⟨rfl, wordXYN_of_fields hd hn, by simp [InR96, hd, hn]⟩
    · exact ⟨rfl, by simpa [InR96, hd] using hn⟩
  case h_9 h => exact rightAnswer_decodeAlu (eq_ofNat_of_toNat_eq h)
  case h_14 h =>
    have hd := eq_ofNat_of_toNat_eq h
    exact ⟨rfl, wordXYN_of_fields hd rfl, by simp [InR96, hd]⟩
  case h_15 h => exact rightAnswer_decodeKey (eq_ofNat_of_toNat_eq h)
  case h_16 =>
    have hlt := (fieldD3 op).isLt
    have hd : (fieldD3 op).toNat = 15 := by simp only [imp_false] at *; omega
    exact rightAnswer_decodeMisc (eq_ofNat_of_toNat_eq hd)

theorem rightAnswer_of_eq {op : Word} {a : Except Reject Instr} (h : decodeWord op = a) : RightAnswer op a :=
  h ▸ rightAnswer_decodeWord op

/-- Settles O2: the decoder's answer is a right one. -/
theorem decodeThenEncodeIsIdentity : Obligations.DecodeThenEncodeIsIdentity := by
  intro op i h
  obtain ⟨hwf, hop, -⟩ := rightAnswer_of_eq h
  exact ⟨hwf, hop⟩

/-- Settles O4: the decoder's answer is a right one, and a right answer rejects exactly the words of R96. -/
theorem unrecognisedWordsAreThoseListed : Obligations.UnrecognisedWordsAreThoseListed := by
  intro op
  change _ ∧ (_ ↔ InR96 op)
  cases h : decodeWord op with
  | ok i =>
    obtain ⟨-, -, hno⟩ := rightAnswer_of_eq h
    exact ⟨.inr ⟨i, rfl⟩, iff_of_false nofun hno⟩
  | error e =>
    obtain ⟨rfl, hin⟩ := rightAnswer_of_eq h
    exact ⟨.inl rfl, iff_of_true rfl hin⟩

/-! ### The table of R95, read top to bottom (R94) -/

/-- Two rows, the later not SYS's, ask different values of the bits that both masks keep. -/
theorem opcodeRows_disjoint : ∀ j k : Fin opcodeRows.length, j < k → k.val ≠ 2 →
    opcodeRows[j].bits &&& opcodeRows[k].mask ≠ opcodeRows[k].bits &&& opcodeRows[j].mask := by
  decide

theorem eq_two_of_two_matches {op : Word} {j k : Nat} {a b : OpcodeRow} (ha : opcodeRows[j]? = some a)
    (hb : opcodeRows[k]? = some b) (hjk : j < k) (hma : op &&& a.mask = a.bits) (hmb : op &&& b.mask = b.bits) : k = 2 := by
  obtain ⟨hj, rfl⟩ := List.getElem?_eq_some_iff.mp ha
  obtain ⟨hk, rfl⟩ := List.getElem?_eq_some_iff.mp hb
  by_contra hne
  refine opcodeRows_disjoint ⟨j, hj⟩ ⟨k, hk⟩ hjk hne ?_
  calc opcodeRows[j].bits &&& opcodeRows[k].mask
    _ = op &&& opcodeRows[j].mask &&& opcodeRows[k].mask := by rw [hma]
    _ = op &&& opcodeRows[k].mask &&& opcodeRows[j].mask := by ac_rfl
    _ = opcodeRows[k].bits &&& opcodeRows[j].mask := by rw [hmb]

/-- A word that matches no row is not an instruction's, so the decoder rejects it. -/
theorem decodeWord_of_no_row {op : Word} (h : ∀ r ∈ opcodeRows, op &&& r.mask ≠ r.bits) :
    decodeWord op = .error (.unrecognised op) := by
  cases hdec : decodeWord op with
  | error e => rw [(rightAnswer_of_eq hdec).1]
  | ok i =>
    obtain ⟨-, hop, -⟩ := rightAnswer_of_eq hdec
    obtain ⟨r, hr, hmatch, -⟩ := exists_row i
    exact absurd (hop ▸ hmatch) (h r hr)

theorem decodeWord_eq_decodeByTable (op : Word) : decodeWord op = decodeByTable op := by
  by_cases hcls : op = 0x00E0
  · subst hcls; rfl
  by_cases hret : op = 0x00EE
  · subst hret; rfl
  unfold decodeByTable
  cases hfind : opcodeRows.find? (fun r => op &&& r.mask == r.bits) with
  | none => exact decodeWord_of_no_row (by simpa using hfind)
  | some r =>
    have hmatch : op &&& r.mask = r.bits := by simpa using List.find?_some hfind
    exact decodeWord_of_row (List.mem_of_find?_eq_some hfind) hmatch fun _ => ⟨hcls, hret⟩

/-- Settles O3: a matched row gives the decoder's answer, and no matched row a rejection; two rows that ask different values of a
common bit match no common word. -/
theorem dispatchIsFirstMatchingRow : Obligations.DispatchIsFirstMatchingRow :=
  ⟨rfl, decodeWord_eq_decodeByTable, fun _ _ _ _ _ => eq_two_of_two_matches⟩

/-- Settles O5, by running the decoder on the spec's four words. -/
theorem workedDecodeOfTheSpec : Obligations.WorkedDecodeOfTheSpec := by
  unfold Obligations.WorkedDecodeOfTheSpec
  decide

end Sys2Proof

/-! ### The registers an instruction reads (30_encoding.md R93) -/

namespace Sys2Proof.Machine

/-- t and u are the same but for V[r]. -/
structure DifferAt (r : Nibble) (t u : State) : Prop where
  frame : u = t.setRegs u.v
  regs : ∀ q, q ≠ r → u.reg q = t.reg q

section

variable {s t u : State} {r x : Nibble} {b : Byte} {i : Instr}

theorem DifferAt.onlyChanges (h : DifferAt r t u) : OnlyChanges [.v] t u := by
  rw [h.frame]
  exact onlyChanges_setRegs t _

/-! What an instruction reads is not changed by a write of a register it does not read. -/

theorem State.reg_setReg_of_readsReg (hr : readsReg r i = false) (hx : readsReg x i = true) :
    (s.setReg r b).reg x = s.reg x := by
  have hne : x ≠ r := by rintro rfl; simp [hr] at hx
  rw [State.reg_setReg, if_neg hne]

@[simp] theorem State.setReg_drawn : (s.setReg r b).drawn = s.drawn := rfl

theorem State.regBlock_setReg (h : x.toNat < r.toNat) : (s.setReg r b).regBlock x = s.regBlock x := by
  refine List.ext_getElem (by simp only [State.regBlock_length]) fun k hk _ => ?_
  have hne : r.toNat ≠ k := by rw [State.regBlock_length] at hk; omega
  simp only [State.regBlock_get, State.setReg_v]
  exact Vector.getElem_set_ne _ _ hne

theorem State.loadedBlock_setReg_get {k : Nat} (hk : k < 16) (hne : k ≠ r.toNat) :
    ((s.setReg r b).loadedBlock x)[k] = (s.loadedBlock x)[k] := by
  simp only [State.loadedBlock_get, State.setReg_v, Vector.getElem_set_ne _ _ hne.symm]
  rfl

theorem faultOf_setReg (hr : readsReg r i = false) : faultOf (s.setReg r b) i = faultOf s i := by
  cases i
  case skp x | sknp x =>
    have hx : (s.setReg r b).reg x = s.reg x := State.reg_setReg_of_readsReg hr (by simp [readsReg])
    simp only [faultOf, hx]
  all_goals rfl

end

/-- The cases are taken together by the registers the instruction reads: none, Vx, Vy, V0, both, and the blocks. -/
theorem differAt_effect {i : Instr} {r : Nibble} (s : State) (b : Byte) (hr : readsReg r i = false) :
    DifferAt r (effect s i) (effect (s.setReg r b) i) := by
  have hreads {x : Nibble} (hx : readsReg x i = true) : (s.setReg r b).reg x = s.reg x :=
    State.reg_setReg_of_readsReg hr hx
  cases i
  case cls | ret | sys | jp | call | ldImm | ldI | rnd | ldVxDt | ldVxK =>
    exact ⟨rfl, fun q hq => by simp [effect, hq]⟩
  case seImm x _ | sneImm x _ | addImm x _ | shr x _ | shl x _ | skp x | sknp x | ldDtVx x | ldStVx x | addIVx x
      | ldFVx x | ldBVx x =>
    have hx := hreads (x := x) (by simp [readsReg])
    simp only [effect, hx]
    exact ⟨rfl, fun q hq => by simp [hq]⟩
  case ldReg x y =>
    have hy := hreads (x := y) (by simp [readsReg])
    simp only [effect, hy]
    exact ⟨rfl, fun q hq => by simp [hq]⟩
  case jpV0 nnn =>
    have h0 := hreads (x := 0) rfl
    simp only [effect, h0]
    exact ⟨rfl, fun q hq => by simp [hq]⟩
  case seReg x y | sneReg x y | orReg x y | andReg x y | xorReg x y | addReg x y | subReg x y | subnReg x y =>
    have hx := hreads (x := x) (by simp [readsReg])
    have hy := hreads (x := y) (by simp [readsReg])
    simp only [effect, hx, hy]
    exact ⟨rfl, fun q hq => by simp [hq]⟩
  case drw x y n =>
    have hx := hreads (x := x) (by simp [readsReg])
    have hy := hreads (x := y) (by simp [readsReg])
    simp only [effect, hx, hy]
    exact ⟨rfl, fun q hq => by simp [State.ea, hq]⟩
  case storeRegs x =>
    have hlt : x.toNat < r.toNat := Nat.lt_of_not_le (of_decide_eq_false hr)
    simp only [effect, State.regBlock_setReg hlt]
    exact ⟨rfl, fun q hq => by simp [hq]⟩
  case loadRegs x =>
    exact ⟨rfl, fun q hq => State.loadedBlock_setReg_get _ fun he => hq (BitVec.eq_of_toNat_eq he)⟩

/-- Settles O32: the fault does not depend on a register that is not read, and with it differ at most the effects, and the states a
fault leaves, in that register. -/
theorem unnamedRegistersDoNotMatter : Obligations.UnnamedRegistersDoNotMatter := by
  intro i s r b hr
  have hdiffer : DifferAt r ((faultOf s i).elim (effect s i) s.raise)
      ((faultOf s i).elim (effect (s.setReg r b) i) (s.setReg r b).raise) := by
    cases faultOf s i with
    | none => exact differAt_effect s b hr
    | some f => exact ⟨rfl, fun q hq => by simp [hq]⟩
  have hexec := exec_eq i (s.setReg r b)
  rw [faultOf_setReg hr] at hexec
  exact ⟨_, _, exec_eq i s, hexec, hdiffer.onlyChanges, hdiffer.regs⟩

end Sys2Proof.Machine

/-! ### Control flow (40_control_flow.md): the fault an instruction takes, jumps, calls and skips, and a core that spins -/

namespace Sys2Proof.Machine

section

variable {s : State} {i : Instr} {f : Fault}

theorem onlyChanges_raise (s : State) (f : Fault) : OnlyChanges [.halt, .cause] s (s.raise f) := by
  intro p hp; cases p <;> simp [Same] at hp ⊢

/-- An instruction that meets a fault leaves the state before it with only HALT and CAUSE set (60_exceptions.md R252, R253). -/
theorem exec_of_fault (h : faultOf s i = some f) :
    ∃ t, exec i s = .next t ∧ t.halt = true ∧ t.cause = some f ∧ OnlyChanges [.halt, .cause] s t :=
  ⟨s.raise f, by rw [exec_eq, h]; rfl, rfl, rfl, onlyChanges_raise s f⟩

/-- An instruction of the skip class goes on by 4 under its condition c, and by 2 under what excludes c. -/
theorem exec_of_skip {c d : Prop} [Decidable c] (hf : faultOf s i = none) (hw : mayWrite i = [.pc])
    (hpc : pcAfter s i = if c then s.pc + 4 else s.pc + 2) (hd : d → ¬ c) :
    ∃ t, exec i s = .next t ∧ OnlyChanges [.pc] s t ∧ (c → t.pc = s.pc + 4) ∧ (d → t.pc = s.pc + 2) := by
  have hpc' : (effect s i).pc = if c then s.pc + 4 else s.pc + 2 := (effect_pc i s hf).trans hpc
  exact ⟨effect s i, exec_of_noFault hf, hw ▸ onlyChanges_effect i s,
    fun hc => hpc'.trans (if_pos hc), fun h => hpc'.trans (if_neg (hd h))⟩

theorem faultOf_call_of_lt {nnn : Addr} (h : s.stk.length < 16) : faultOf s (.call nnn) = none :=
  if_neg (Nat.not_le.mpr h)

theorem faultOf_ret_of_concat {k : List Word} {a : Word} (h : s.stk = k ++ [a]) : faultOf s .ret = none :=
  if_neg (by simp [h])

end

/-- The target of JP V0 lies below 0x10FF, so the 16-bit sum does not wrap. -/
theorem jumpSum_toNat (nnn : Addr) (b : Byte) : (zext16 nnn + b.setWidth 16).toNat = nnn.toNat + b.toNat := by
  have := nnn.isLt
  have := b.isLt
  rw [jumpSum_eq_ofNat, BitVec.toNat_ofNat]; omega

/-- Settles O34: each of the three completes in its effect, which writes PC alone. -/
theorem sysAdvancesAndJumpsReplacePc : Obligations.SysAdvancesAndJumpsReplacePc := fun nnn s =>
  ⟨⟨_, exec_of_noFault rfl, rfl, onlyChanges_effect (.sys nnn) s⟩,
   ⟨_, exec_of_noFault rfl, zext16_toNat nnn, onlyChanges_effect (.jp nnn) s⟩,
   ⟨_, exec_of_noFault rfl, jumpSum_toNat nnn (s.reg 0), onlyChanges_effect (.jpV0 nnn) s⟩⟩

/-- Settles O35: below 16 entries CALL meets no fault, and from 16 on it meets StackOverflow. -/
theorem callPushesTheNextAddress : Obligations.CallPushesTheNextAddress := by
  refine fun nnn s => ⟨fun h => ?_, fun h => exec_of_fault (if_pos h)⟩
  exact ⟨_, exec_of_noFault (faultOf_call_of_lt h), rfl, zext16_toNat nnn, onlyChanges_effect (.call nnn) s⟩

/-- Settles O36: a stack with a last entry meets no fault, and the empty stack meets StackUnderflow. -/
theorem returnPopsIntoPc : Obligations.ReturnPopsIntoPc := by
  refine ⟨fun s k a h => ?_, fun s h => exec_of_fault (if_pos h)⟩
  have hstk : (effect s .ret).stk = k := by simp [effect, h]
  have hpc : (effect s .ret).pc = a := by simp [effect, h]
  exact ⟨_, exec_of_noFault (faultOf_ret_of_concat h), hstk, hpc, onlyChanges_effect .ret s⟩

/-- Settles O37: the CALL leaves a stack that ends in PC + 2, and RET pops that entry. -/
theorem returnUndoesCall : Obligations.ReturnUndoesCall := by
  intro nnn s h
  obtain ⟨t, ht, hstk, -⟩ := (callPushesTheNextAddress nnn s).1 h
  refine ⟨t, ht, fun u hu => ?_⟩
  obtain ⟨w, hw, hwstk, hwpc, -⟩ := returnPopsIntoPc.1 u s.stk (s.pc + 2) (hu.trans hstk)
  exact ⟨w, hw, hwpc, hwstk⟩

/-- Settles O38: the four are of the skip class, with the conditions `pcAfter` names. -/
theorem skipsAdvanceFourOrTwo : Obligations.SkipsAdvanceFourOrTwo := fun _ _ _ _ =>
  ⟨exec_of_skip rfl rfl rfl id, exec_of_skip rfl rfl rfl not_not_intro,
   exec_of_skip rfl rfl rfl id, exec_of_skip rfl rfl rfl not_not_intro⟩

/-! ### A core whose cycles change nothing -/

/-- The state after one frame step per key input of `ks`, none of whose cycles changes anything: steps 1, 2 and the countdown of
each (`runFrames_idle`). -/
def State.idle (s : State) (ks : List Keys) : State := ks.foldl State.beforeCycle s

section

variable (s : State) (ks : List Keys) (k : Keys)

theorem State.idle_cons : s.idle (k :: ks) = (s.beforeCycle k).idle ks := rfl

theorem State.idle_concat : s.idle (ks ++ [k]) = (s.idle ks).beforeCycle k := by
  simp [State.idle]

theorem onlyChanges_beforeCycle : OnlyChanges [.changed, .keys, .dt, .st, .frameNo] s (s.beforeCycle k) := by
  intro p hp; cases p <;> simp [Same] at hp ⊢

theorem onlyChanges_idle : OnlyChanges [.changed, .keys, .dt, .st, .frameNo] s (s.idle ks) := by
  induction ks generalizing s with
  | nil => intro p _; cases p <;> simp [Same, State.idle]
  | cons k ks ih => exact ((onlyChanges_beforeCycle s k).trans (ih _)).mono (by simp)

theorem State.idle_dt_toNat : (s.idle ks).dt.toNat = s.dt.toNat - ks.length := by
  induction ks generalizing s with
  | nil => rfl
  | cons k ks ih =>
    rw [State.idle_cons, ih, State.beforeCycle_dt, countDown_toNat, List.length_cons]; omega

theorem State.idle_st_toNat : (s.idle ks).st.toNat = s.st.toNat - ks.length := by
  induction ks generalizing s with
  | nil => rfl
  | cons k ks ih =>
    rw [State.idle_cons, ih, State.beforeCycle_st, countDown_toNat, List.length_cons]; omega

/-- The last frame step cleared CHANGED and loaded its own key input. -/
theorem State.idle_changed_keys (h : ks ≠ []) : (s.idle ks).changed = false ∧ some (s.idle ks).keys = ks.getLast? := by
  obtain rfl | ⟨ks', k, rfl⟩ := List.eq_nil_or_concat ks
  · exact absurd rfl h
  · simp [State.idle_concat]

/-- Where steps 1, 2 and the countdown keep P, and the cycle of a state with P changes nothing, a run from such a state only idles. -/
theorem runFrames_idle {P : State → Prop} (hkeep : ∀ k s, P s → P (s.beforeCycle k))
    (hstep : ∀ k s, P s → frameStep k s = .next (s.beforeCycle k)) (h : P s) : runFrames ks s = .next (s.idle ks) := by
  induction ks generalizing s with
  | nil => rfl
  | cons k ks ih =>
    simp only [runFrames, hstep k s h]
    exact ih _ (hkeep k s h)

end

/-- The next cycle of s runs at an unrecognised opcode. -/
def State.AtUnrecognised (s : State) : Prop := s.running ∧ s.fetch ≠ none ∧ s.nextInstr = none

theorem State.atUnrecognised_of_fetch {s : State} {op : Word} {r : Reject} (hr : s.running) (hf : s.fetch = some op)
    (hd : decodeWord op = .error r) : s.AtUnrecognised :=
  ⟨hr, by simp [hf], by simp [State.nextInstr, hf, hd]⟩

/-- The cycle at an unrecognised opcode writes nothing (R131). -/
theorem frameStep_of_atUnrecognised (k : Keys) {s : State} (h : s.AtUnrecognised) :
    frameStep k s = .next (s.beforeCycle k) := by
  obtain ⟨hrun, hfetch, hnext⟩ := h
  rw [frameStep_running s k hrun]
  obtain ⟨hnone, -⟩ | ⟨-, hcycle⟩ := cycle_of_none (s.beforeCycle k) hnext
  · exact absurd hnone hfetch
  · exact hcycle

/-- Settles O20: no frame step moves PC or MEM, so the next one meets the same opcode, and the run only idles. -/
theorem unrecognisedOpcodeSpins : Obligations.UnrecognisedOpcodeSpins := by
  intro ks s op hr hf hd
  have hrun : runFrames ks s = .next (s.idle ks) :=
    runFrames_idle s ks (P := State.AtUnrecognised) (fun _ _ h => h) (fun k _ => frameStep_of_atUnrecognised k)
      (State.atUnrecognised_of_fetch hr hf hd)
  exact ⟨_, hrun, onlyChanges_idle s ks, s.idle_dt_toNat ks, s.idle_st_toNat ks, s.idle_changed_keys ks⟩

end Sys2Proof.Machine

/-! ### ALU (41_alu.md): a write of one register, a write of a result and a flag, and the shifts -/

namespace Sys2Proof.Machine

/-- An instruction whose effect is to write V[x] and advance writes no other register, and VF only as x (R140 to R145). -/
theorem exec_of_setReg {x : Nibble} {b : Byte} (i : Instr) (s : State) (hf : faultOf s i = none)
    (he : effect s i = (s.setReg x b).advance) :
    ∃ t, exec i s = .next t ∧ t.reg x = b ∧ (∀ r, r ≠ x → t.reg r = s.reg r) ∧ t.pc = s.pc + 2 ∧
      OnlyChanges [.v, .pc] s t := by
  refine ⟨(s.setReg x b).advance, he ▸ exec_of_noFault hf, ?_, fun r hr => ?_, rfl, (onlyChanges_setReg s x b).advance⟩
  · simp
  · simp [hr]

/-- An instruction whose effect is to write a result to V[x], then a flag to VF, and advance: with x = 15 the flag is what
stays (R152 (d)). -/
theorem exec_of_writeFlagged {x : Nibble} {p : Byte × Byte} (i : Instr) (s : State) (hf : faultOf s i = none)
    (he : effect s i = (s.writeFlagged x p).advance) :
    ∃ t, exec i s = .next t ∧ (x ≠ 15 → t.reg x = p.1) ∧ t.reg 15 = p.2 ∧
      (∀ r, r ≠ x → r ≠ 15 → t.reg r = s.reg r) ∧ t.pc = s.pc + 2 ∧ OnlyChanges [.v, .pc] s t := by
  have hreg (r : Nibble) : (s.writeFlagged x p).advance.reg r = if r = vf then p.2 else if r = x then p.1 else s.reg r := by
    simp
  refine ⟨(s.writeFlagged x p).advance, he ▸ exec_of_noFault hf, fun hx => ?_, hreg vf, fun r hr hvf => ?_, rfl,
    (onlyChanges_writeFlagged s x p).advance⟩
  · exact (hreg x).trans ((if_neg hx).trans (if_pos rfl))
  · exact (hreg r).trans ((if_neg hvf).trans (if_neg hr))

theorem flagByte_decide_of_pos {c : Prop} [Decidable c] (h : c) : flagByte (decide c) = 1 := by simp [h]

theorem flagByte_decide_of_neg {c : Prop} [Decidable c] (h : ¬ c) : flagByte (decide c) = 0 := by simp [h]

/-- The halving of `shiftRightOut` is the shift by one to the right. -/
@[simp] theorem shiftRightOut_fst (a : Byte) : (shiftRightOut a).1 = a >>> 1 := by
  have := a.isLt
  apply BitVec.eq_of_toNat_eq
  simp only [shiftRightOut, BitVec.toNat_ofNat, BitVec.toNat_ushiftRight, Nat.shiftRight_eq_div_pow]; omega

/-- The doubling of `shiftLeftOut` is the shift by one to the left. -/
@[simp] theorem shiftLeftOut_fst (a : Byte) : (shiftLeftOut a).1 = a <<< 1 := by
  apply BitVec.eq_of_toNat_eq
  simp only [shiftLeftOut, BitVec.toNat_ofNat, BitVec.toNat_shiftLeft, Nat.shiftLeft_eq, pow_one]

/-- The difference modulo 256, with and without a borrow (R147). -/
theorem subNotBorrow_fst_toNat (a b : Byte) :
    (subNotBorrow a b).1.toNat = if b.toNat ≤ a.toNat then a.toNat - b.toNat else a.toNat + 256 - b.toNat := by
  have := a.isLt
  have := b.isLt
  rw [subNotBorrow, BitVec.toNat_ofNat]
  split <;> omega

/-- What SUB and SUBN share: an instruction that writes `a - b` and NOT borrow (R147, R149). -/
theorem exec_of_subNotBorrow {x : Nibble} {a b : Byte} (i : Instr) (s : State) (hf : faultOf s i = none)
    (he : effect s i = (s.writeFlagged x (subNotBorrow a b)).advance) :
    ∃ t, exec i s = .next t ∧
      (x ≠ 15 → (t.reg x).toNat = if b.toNat ≤ a.toNat then a.toNat - b.toNat else a.toNat + 256 - b.toNat) ∧
      (b.toNat ≤ a.toNat → t.reg 15 = 1) ∧ (a.toNat < b.toNat → t.reg 15 = 0) ∧
      (∀ r, r ≠ x → r ≠ 15 → t.reg r = s.reg r) ∧ t.pc = s.pc + 2 ∧ OnlyChanges [.v, .pc] s t := by
  obtain ⟨t, ht, hx, hvf, hframe⟩ := exec_of_writeFlagged i s hf he
  refine ⟨t, ht, fun h => ?_, fun h => ?_, fun h => ?_, hframe⟩
  · rw [hx h, subNotBorrow_fst_toNat]
  · exact hvf.trans (flagByte_decide_of_pos h)
  · exact hvf.trans (flagByte_decide_of_neg (Nat.not_le.mpr h))

/-- Settles O39: each of the three writes one register. -/
theorem loadsCopiesAndAddImmediate : Obligations.LoadsCopiesAndAddImmediate := by
  refine fun x y nn s => ⟨exec_of_setReg _ s rfl rfl, ?_, exec_of_setReg _ s rfl rfl⟩
  obtain ⟨t, ht, hx, hframe⟩ := exec_of_setReg (.addImm x nn) s rfl rfl
  exact ⟨t, ht, hx ▸ BitVec.toNat_add _ _, hframe⟩

/-- Settles O40: each of the three writes one register, with the bit-vector operation, which works bit by bit. -/
theorem logicIsBitByBit : Obligations.LogicIsBitByBit := by
  refine fun x y s => ⟨?_, ?_, ?_⟩
  · obtain ⟨t, ht, hx, hframe⟩ := exec_of_setReg (.orReg x y) s rfl rfl
    exact ⟨t, ht, fun k _ => hx ▸ BitVec.getLsbD_or, hframe⟩
  · obtain ⟨t, ht, hx, hframe⟩ := exec_of_setReg (.andReg x y) s rfl rfl
    exact ⟨t, ht, fun k _ => hx ▸ BitVec.getLsbD_and, hframe⟩
  · obtain ⟨t, ht, hx, hframe⟩ := exec_of_setReg (.xorReg x y) s rfl rfl
    exact ⟨t, ht, fun k _ => hx ▸ BitVec.getLsbD_xor, hframe⟩

/-- Settles O41: the result and the flag are those of `addWithCarry`. -/
theorem addWritesSumAndCarry : Obligations.AddWritesSumAndCarry := by
  intro x y s
  obtain ⟨t, ht, hx, hvf, hframe⟩ := exec_of_writeFlagged (.addReg x y) s rfl rfl
  refine ⟨t, ht, fun h => ?_, fun h => ?_, fun h => ?_, hframe⟩
  · rw [hx h, addWithCarry_fst, BitVec.toNat_add]
  · exact hvf.trans (flagByte_decide_of_pos h)
  · exact hvf.trans (flagByte_decide_of_neg (Nat.not_le.mpr h))

/-- Settles O42: SUB and SUBN are the same subtraction with the operands exchanged. -/
theorem subtractWritesNotBorrow : Obligations.SubtractWritesNotBorrow := fun x y s =>
  ⟨exec_of_subNotBorrow (.subReg x y) s rfl rfl, exec_of_subNotBorrow (.subnReg x y) s rfl rfl⟩

/-- Settles O43: the results are the bit-vector shifts by one, and the flag is the bit they lose. -/
theorem shiftsWriteTheBitShiftedOut : Obligations.ShiftsWriteTheBitShiftedOut := by
  refine fun x y s => ⟨?_, ?_⟩
  · obtain ⟨t, ht, hx, hvf, hframe⟩ := exec_of_writeFlagged (.shr x y) s rfl rfl
    refine ⟨t, ht, fun h => ?_, hvf, hframe⟩
    rw [hx h, shiftRightOut_fst]
    exact ⟨by simp, fun k _ => by simp [Nat.add_comm]⟩
  · obtain ⟨t, ht, hx, hvf, hframe⟩ := exec_of_writeFlagged (.shl x y) s rfl rfl
    refine ⟨t, ht, fun h => ?_, hvf, hframe⟩
    rw [hx h, shiftLeftOut_fst]
    exact ⟨by simp, fun k hk => by simp; omega⟩

/-- Settles O44: RND writes the draw AND nn to its one destination. -/
theorem randomIsAFreshDrawMasked : Obligations.RandomIsAFreshDrawMasked := by
  intro x nn s
  have hx : (effect s (.rnd x nn)).reg x = Config.randIn s.drawNo &&& nn := by simp [effect, State.drawn]
  have hother (r : Nibble) (hr : r ≠ x) : (effect s (.rnd x nn)).reg r = s.reg r :=
    effect_reg_of_not_destination _ s r (beq_eq_false_iff_ne.mpr hr) (.inr rfl)
  refine ⟨_, exec_of_noFault rfl, fun k _ => ?_, ?_, ?_, rfl, hother, rfl, onlyChanges_effect (.rnd x nn) s⟩
  · rw [hx, BitVec.getLsbD_and]
  · rintro rfl
    exact hx.trans (and_allOnes8 _)
  · rintro rfl
    exact hx.trans BitVec.and_zero

end Sys2Proof.Machine

/-! ### Index register and memory (42_index_memory.md): the writes of I, and the block at I that is stored and loaded -/

namespace Sys2Proof.Machine

theorem addToIndex_fst_toNat (i : Word) (a : Byte) : (addToIndex i a).1.toNat = (i.toNat + a.toNat) % 65536 :=
  BitVec.toNat_ofNat _ _

/-- The product is at most 1275, so the 16-bit address does not wrap (R172). -/
theorem glyphAddress_toNat (b : Byte) : (glyphAddress b).toNat = b.toNat * 5 := by
  have := b.isLt
  rw [glyphAddress, BitVec.toNat_ofNat]; omega

theorem toNat_eq_of_eq_ofNat {b : Byte} {d : Nat} (hb : b = BitVec.ofNat 8 d) (hd : d < 256) : b.toNat = d := by
  rw [hb, BitVec.toNat_ofNat, Nat.mod_eq_of_lt hd]

section

variable {m : Memory} {a k b : Nat} {bs : List Byte} {s : State} {x r : Nibble}

theorem Memory.read_writeBytes_add (hm : m.wf) (ha : a + bs.length ≤ 0x1000) (hk : k < bs.length) :
    (m.writeBytes a bs).read (a + k) = bs[k] := by
  rw [Memory.read_writeBytes hm ha, dif_pos ⟨Nat.le_add_right a k, by omega⟩]
  simp only [Nat.add_sub_cancel_left]

theorem Memory.read_writeBytes_outside (hm : m.wf) (ha : a + bs.length ≤ 0x1000) (hb : b < a ∨ a + bs.length ≤ b) :
    (m.writeBytes a bs).read b = m.read b := by
  rw [Memory.read_writeBytes hm ha, dif_neg (by omega)]

/-- A block store leaves every byte below I and above I + x (R174). -/
theorem effect_storeRegs_read_outside (hm : s.mem.wf) (hx : s.ea x.toNat ≤ 0xFFF) (ha : a < s.ea 0 ∨ s.ea x.toNat < a) :
    (effect s (.storeRegs x)).mem.read a = s.mem.read a := by
  simp only [State.ea] at hx ha
  apply Memory.read_writeBytes_outside hm <;> simp only [State.ea, State.regBlock_length] <;> omega

/-- A block load gives V[r] the byte at I + r (R175). -/
theorem effect_loadRegs_reg (hr : r.toNat ≤ x.toNat) : (effect s (.loadRegs x)).reg r = s.mem.read (s.ea r.toNat) :=
  (s.loadedBlock_get x r.toNat r.isLt).trans (if_pos hr)

end

/-- Settles O46: the digits are a block of three bytes at I, and each is below 256. -/
theorem bcdStoresThreeDigits : Obligations.BcdStoresThreeDigits := by
  refine fun x s hm => ⟨fun h => ?_, fun h => exec_of_fault (if_pos h)⟩
  have hvx := (s.reg x).isLt
  have hfits : s.ea 0 + (bcdDigits (s.reg x)).length ≤ 0x1000 := Nat.succ_le_succ h
  have hread (k : Nat) (hk : k < (bcdDigits (s.reg x)).length) :
      (effect s (.ldBVx x)).mem.read (s.ea k) = (bcdDigits (s.reg x))[k] := Memory.read_writeBytes_add hm hfits hk
  refine ⟨_, exec_of_noFault (if_neg (Nat.not_lt.mpr h)), ?_, ?_, ?_,
    fun a ha => Memory.read_writeBytes_outside hm hfits ha, rfl, onlyChanges_effect (.ldBVx x) s⟩
  · exact toNat_eq_of_eq_ofNat (hread 0 (by simp)) (by omega)
  · exact toNat_eq_of_eq_ofNat (hread 1 (by simp)) (by omega)
  · exact toNat_eq_of_eq_ofNat (hread 2 (by simp)) (by omega)

/-- Settles O47: the block of V0 to Vx is read back register by register, and no byte outside it changes. -/
theorem storeCopiesV0ToVx : Obligations.StoreCopiesV0ToVx := by
  refine fun x s hm => ⟨fun h => ?_, fun h => exec_of_fault (if_pos h)⟩
  exact ⟨_, exec_of_noFault (faultOf_storeRegs_of_le h), fun r hr => effect_storeRegs_read hm h hr,
    fun a ha => effect_storeRegs_read_outside hm h ha, rfl, onlyChanges_effect (.storeRegs x) s⟩

/-- Settles O48: the registers up to x are the destinations of the load, and no other register is written. -/
theorem loadFillsV0ToVx : Obligations.LoadFillsV0ToVx := by
  refine fun x s => ⟨fun h => ?_, fun h => exec_of_fault (if_pos h)⟩
  have hother (r : Nibble) (hr : x.toNat < r.toNat) : (effect s (.loadRegs x)).reg r = s.reg r :=
    effect_reg_of_not_destination _ s r (decide_eq_false (Nat.not_le.mpr hr)) (.inr rfl)
  exact ⟨_, exec_of_noFault (if_neg (Nat.not_lt.mpr h)), fun r hr => effect_loadRegs_reg hr, hother, rfl,
    onlyChanges_effect (.loadRegs x) s⟩

/-- Settles O49: with the same I the load reads the very cells where the store put V0 to Vx. -/
theorem loadUndoesStore : Obligations.LoadUndoesStore := by
  intro x s hm h
  obtain ⟨t, ht, hstored, -⟩ := (storeCopiesV0ToVx x s hm).1 h
  refine ⟨t, ht, fun u hmem hi => ?_⟩
  have hea (k : Nat) : u.ea k = s.ea k := by simp only [State.ea, hi]
  obtain ⟨w, hw, hloaded, -⟩ := (loadFillsV0ToVx x u).1 ((hea x.toNat).trans_le h)
  refine ⟨w, hw, fun r hr => ?_⟩
  calc w.reg r
    _ = t.mem.read (s.ea r.toNat) := by rw [hloaded r hr, hmem, hea]
    _ = s.reg r := hstored r hr

/-- Settles O45: each of the three completes in its effect, and ADD I writes the overflow of `addToIndex` to VF. -/
theorem indexIsLoadedAddedAndPointed : Obligations.IndexIsLoadedAddedAndPointed := by
  refine fun x nnn s => ⟨⟨_, exec_of_noFault rfl, zext16_toNat nnn, rfl, onlyChanges_effect (.ldI nnn) s⟩, ?_,
    ⟨_, exec_of_noFault rfl, glyphAddress_toNat _, rfl, onlyChanges_effect (.ldFVx x) s⟩⟩
  have hvf : (effect s (.addIVx x)).reg 15 = (addToIndex s.i (s.reg x)).2 := State.reg_setReg _ vf vf _
  have hother (r : Nibble) (hr : r ≠ 15) : (effect s (.addIVx x)).reg r = s.reg r :=
    effect_reg_of_not_destination _ s r rfl (.inl hr)
  exact ⟨_, exec_of_noFault rfl, addToIndex_fst_toNat _ _, fun h => hvf.trans (flagByte_decide_of_pos h),
    fun h => hvf.trans (flagByte_decide_of_neg (Nat.not_le.mpr h)), hother, rfl, onlyChanges_effect (.addIVx x) s⟩

end Sys2Proof.Machine

/-! ### Display (43_display.md): what DRW does to each cell and to VF, said over the set S of R192 -/

namespace Sys2Proof.Machine

/-- Settles O51: CLS completes in its effect, which leaves the blank framebuffer. -/
theorem clearZeroesEveryPixel : Obligations.ClearZeroesEveryPixel := fun s =>
  ⟨_, exec_of_noFault rfl, Framebuffer.pixel_blank, rfl, rfl, onlyChanges_effect .cls s⟩

section

variable {s u : State} {x y n : Nibble} {row : Fin 32} {col : Fin 64}

/-- The set S of R192 is what the raster engine hits with the operands DRW captures. -/
theorem inSprite_iff_spriteHits :
    InSprite s x y n row col ↔ SpriteHits s.mem (s.ea 0) (s.reg x) (s.reg y) n.toNat row col := by
  constructor
  · rintro ⟨r, hr, k, hk, hrow, hbit⟩
    exact ⟨r, hr, hrow, k, hk, hbit⟩
  · rintro ⟨r, hr, hrow, k, hk, hbit⟩
    exact ⟨r, hr, k, hk, hrow, hbit⟩

/-- The set S depends on memory, I and the two coordinates only. -/
theorem inSprite_congr (hmem : u.mem = s.mem) (hi : u.i = s.i) (hx : u.reg x = s.reg x) (hy : u.reg y = s.reg y) :
    InSprite u x y n row col ↔ InSprite s x y n row col := by
  simp only [InSprite, State.ea, hmem, hi, hx, hy]

theorem faultOf_drw_of_fits (h : n.toNat = 0 ∨ s.ea (n.toNat - 1) ≤ 0xFFF) : faultOf s (.drw x y n) = none := by
  simp only [State.ea] at h
  exact if_neg (by omega)

theorem faultOf_drw_of_beyond (hn : 0 < n.toNat) (h : 0xFFF < s.ea (n.toNat - 1)) :
    faultOf s (.drw x y n) = some .dataBounds := by
  simp only [State.ea] at h
  exact if_pos (by omega)

/-- DRW inverts the cells of S. -/
theorem effect_drw_pixel_of_inSprite (h : InSprite s x y n row col) :
    (effect s (.drw x y n)).fb.pixel row col = !s.fb.pixel row col := by
  obtain ⟨hit, -, -⟩ := drawSprite_spec s.mem (s.ea 0) (s.reg x) (s.reg y) (s.fb, false) n.toNat (by omega)
  exact hit row col (inSprite_iff_spriteHits.mp h)

/-- DRW keeps the cells outside S. -/
theorem effect_drw_pixel_of_not_inSprite (h : ¬ InSprite s x y n row col) :
    (effect s (.drw x y n)).fb.pixel row col = s.fb.pixel row col := by
  obtain ⟨-, miss, -⟩ := drawSprite_spec s.mem (s.ea 0) (s.reg x) (s.reg y) (s.fb, false) n.toNat (by omega)
  exact miss row col (mt inSprite_iff_spriteHits.mpr h)

theorem flagByte_eq_one_iff (b : Bool) : flagByte b = 1 ↔ b = true := by cases b <;> decide

/-- DRW sets VF exactly when a cell of S was 1, whatever the coordinate registers. -/
theorem effect_drw_flag_eq_one_iff :
    (effect s (.drw x y n)).reg 15 = 1 ↔ ∃ row col, InSprite s x y n row col ∧ s.fb.pixel row col = true := by
  obtain ⟨-, -, coll⟩ := drawSprite_spec s.mem (s.ea 0) (s.reg x) (s.reg y) (s.fb, false) n.toNat (by omega)
  have hvf : (effect s (.drw x y n)).reg 15 =
      flagByte (drawSprite s.mem (s.ea 0) (s.reg x) (s.reg y) n.toNat (s.fb, false)).2 := State.reg_setReg _ vf vf _
  rw [hvf, flagByte_eq_one_iff, coll]
  simp only [inSprite_iff_spriteHits, Bool.false_eq_true, false_or, and_comm]

theorem effect_drw_flag_cases : (effect s (.drw x y n)).reg 15 = 0 ∨ (effect s (.drw x y n)).reg 15 = 1 := by
  obtain ⟨b, hb⟩ := effect_flag (.drw x y n) s rfl
  exact hb ▸ flagByte_cases b

end

/-- Settles O52: the effect cell by cell and VF by the collision, or DataBounds where the last row lies beyond memory. -/
theorem drawInvertsTheSpriteCells : Obligations.DrawInvertsTheSpriteCells := by
  refine fun x y n s => ⟨fun h => ?_, fun hn h => exec_of_fault (faultOf_drw_of_beyond hn h)⟩
  have hclear (h0 : ∀ row col, InSprite s x y n row col → s.fb.pixel row col = false) :
      (effect s (.drw x y n)).reg 15 = 0 := by
    refine effect_drw_flag_cases.resolve_right fun h1 => ?_
    obtain ⟨row, col, hin, hset⟩ := effect_drw_flag_eq_one_iff.mp h1
    exact Bool.false_ne_true ((h0 row col hin).symm.trans hset)
  have hother (r : Nibble) (hr : r ≠ 15) : (effect s (.drw x y n)).reg r = s.reg r :=
    effect_reg_of_not_destination _ s r rfl (.inl hr)
  exact ⟨_, exec_of_noFault (faultOf_drw_of_fits h), fun _ _ => effect_drw_pixel_of_inSprite,
    fun _ _ => effect_drw_pixel_of_not_inSprite, effect_drw_flag_eq_one_iff.mpr, hclear, hother, rfl, rfl,
    onlyChanges_effect (.drw x y n) s⟩

/-- Settles O53: the second drawing has the same set S, so it inverts the inverted cells back, and it finds a 1 in S exactly where
the first found a 0. -/
theorem drawTwiceRestoresThePixels : Obligations.DrawTwiceRestoresThePixels := by
  intro x y n s h
  refine ⟨_, exec_of_noFault (faultOf_drw_of_fits h), fun u hfb hmem hi hx hy => ?_⟩
  have hS (row : Fin 32) (col : Fin 64) : InSprite u x y n row col ↔ InSprite s x y n row col :=
    inSprite_congr hmem hi hx hy
  have hfits : n.toNat = 0 ∨ u.ea (n.toNat - 1) ≤ 0xFFF := by simpa only [State.ea, hi] using h
  have hinv (row : Fin 32) (col : Fin 64) (hin : InSprite s x y n row col) :
      u.fb.pixel row col = !s.fb.pixel row col := by
    rw [hfb, effect_drw_pixel_of_inSprite hin]
  refine ⟨_, exec_of_noFault (faultOf_drw_of_fits hfits), fun row col => ?_, ?_, effect_drw_flag_cases⟩
  · by_cases hin : InSprite s x y n row col
    · rw [effect_drw_pixel_of_inSprite ((hS row col).mpr hin), hinv row col hin, Bool.not_not]
    · rw [effect_drw_pixel_of_not_inSprite (mt (hS row col).mp hin), hfb, effect_drw_pixel_of_not_inSprite hin]
  · rw [effect_drw_flag_eq_one_iff]
    refine exists_congr fun row => exists_congr fun col => ?_
    rw [hS]
    exact and_congr_right fun hin => by rw [hinv row col hin, Bool.not_eq_true']

end Sys2Proof.Machine

/-! ### Timers and keys (44_timers_keys.md): the key skips, and the latch of a key-wait -/

namespace Sys2Proof.Machine

section

variable {s : State} {x : Nibble} {j : Fin 16}

theorem keys_getElem?_eq_some_iff (hj : (s.reg x).toNat = j.val) (d : Bool) :
    s.keys[(s.reg x).toNat]? = some d ↔ s.keys[j] = d := by
  rw [hj, Vector.getElem?_eq_getElem j.isLt, Option.some_inj]
  exact Iff.rfl

/-- A value that names a key is no KeyIndex fault, for SKP and SKNP alike. -/
theorem faultOf_keySkip_of_eq (hj : (s.reg x).toNat = j.val) :
    faultOf s (.skp x) = none ∧ faultOf s (.sknp x) = none := by
  have hle : ¬ 15 < (s.reg x).toNat := by omega
  exact ⟨if_neg hle, if_neg hle⟩

/-- Step 3 writes a register and WAIT at most. -/
theorem onlyChanges_serveKeyWait (s : State) : OnlyChanges [.v, .wait] s s.serveKeyWait := by
  cases hk : leastPressed s.keys with
  | none =>
    rw [s.serveKeyWait_none hk]
    intro p _; cases p <;> simp [Same]
  | some j =>
    rw [s.serveKeyWait_some hk]
    exact ((onlyChanges_setWait s false).trans (onlyChanges_setReg _ _ _)).mono (by simp)

theorem eq_ldVxK_of_wait_mem_mayWrite {i : Instr} (h : .wait ∈ mayWrite i) : ∃ x, i = .ldVxK x := by
  cases i
  case ldVxK x => exact ⟨x, rfl⟩
  all_goals simp [mayWrite] at h

/-- An instruction that sets WAIT is an Fx0A, and leaves its x in WAITREG; a fault sets no WAIT. -/
theorem exec_wait (i : Instr) (s : State) :
    ∃ t, exec i s = .next t ∧ (s.wait = false → t.wait = true → ∃ x, i = .ldVxK x ∧ t.waitReg = x) := by
  cases hf : faultOf s i with
  | some f => exact ⟨s.raise f, by rw [exec_eq, hf]; rfl, fun hw ht => absurd (hw.symm.trans ht) nofun⟩
  | none =>
    refine ⟨effect s i, exec_of_noFault hf, fun hw ht => ?_⟩
    have hmem : .wait ∈ mayWrite i := by
      by_contra hn
      have hsame : (effect s i).wait = s.wait := onlyChanges_effect i s .wait hn
      exact Bool.false_ne_true (hw.symm.trans (hsame.symm.trans ht))
    obtain ⟨x, rfl⟩ := eq_ldVxK_of_wait_mem_mayWrite hmem
    exact ⟨x, rfl, rfl⟩

end

/-- Settles O23, by the kinds of frame step: step 3 writes neither WAITREG nor PC, and only an executed instruction can set WAIT. -/
theorem atMostOneKeyWait : Obligations.AtMostOneKeyWait := by
  intro k s
  obtain ⟨-, e⟩ | ⟨-, hw, e⟩ | ⟨hrun, i, hi, e⟩ | ⟨-, -, e⟩ | ⟨-, -, -, e⟩ := frameStep_cases s k
  · exact ⟨_, e, fun _ => ⟨rfl, rfl⟩, fun h ht => absurd (h.symm.trans ht) nofun⟩
  · have hframe := onlyChanges_serveKeyWait (s.beginFrame k)
    exact ⟨_, e, fun _ => ⟨hframe .waitReg (by decide), hframe .pc (by decide)⟩, fun h => absurd (h.symm.trans hw) nofun⟩
  · obtain ⟨t, ht, hlatch⟩ := exec_wait i (s.beforeCycle k)
    refine ⟨t, e.trans ht, fun h => absurd (hrun.2.symm.trans h) nofun, fun h htw => ?_⟩
    obtain ⟨x, rfl, hx⟩ := hlatch h htw
    exact ⟨x, hi, hx⟩
  · exact ⟨_, e, fun _ => ⟨rfl, rfl⟩, fun h ht => absurd (h.symm.trans ht) nofun⟩
  · exact ⟨_, e, fun _ => ⟨rfl, rfl⟩, fun h ht => absurd (h.symm.trans ht) nofun⟩

/-- Settles O54: each of the three completes in its effect, and a frame step executes on the timers counted down. -/
theorem timersAreReadAndSet : Obligations.TimersAreReadAndSet := by
  refine fun x s => ⟨exec_of_setReg (.ldVxDt x) s rfl rfl,
    ⟨_, exec_of_noFault rfl, rfl, rfl, onlyChanges_effect (.ldDtVx x) s⟩,
    ⟨_, exec_of_noFault rfl, rfl, rfl, onlyChanges_effect (.ldStVx x) s⟩, fun k hrun hi => ?_⟩
  obtain ⟨t, ht, hx, -⟩ := exec_of_setReg (.ldVxDt x) (s.beforeCycle k) rfl rfl
  refine ⟨t, ?_, ?_⟩
  · rw [frameStep_running s k hrun, cycle_of_some (s.beforeCycle k) hi, ht]
  · rw [hx, State.beforeCycle_dt, countDown_toNat]

/-- Settles O55: both are of the skip class where the value names a key, and meet KeyIndex above 15. -/
theorem keySkipsTestTheNamedKey : Obligations.KeySkipsTestTheNamedKey := by
  refine fun x s => ⟨fun j hj => ?_, fun h => ⟨exec_of_fault (if_pos h), exec_of_fault (if_pos h)⟩⟩
  have hkey := keys_getElem?_eq_some_iff hj
  obtain ⟨hskp, hsknp⟩ := faultOf_keySkip_of_eq hj
  exact ⟨exec_of_skip hskp rfl (if_congr (hkey true) rfl rfl) ne_true_of_eq_false,
    exec_of_skip hsknp rfl (if_congr (hkey false) rfl rfl) ne_false_of_eq_true⟩

/-- Settles O56: the effect sets WAIT and WAITREG, and the frame of the instruction has no other element but PC. -/
theorem keyWaitIsOnlyLatched : Obligations.KeyWaitIsOnlyLatched := fun x s =>
  ⟨_, exec_of_noFault rfl, rfl, rfl, rfl, onlyChanges_effect (.ldVxK x) s⟩

end Sys2Proof.Machine

/-! ### The frame sequencer (45_frame_sequencer.md): what a frame step writes in a cycle and outside one, and the runs of R242

Every frame step answers a next state (`exists_frameStep`). What that state t holds is said by the kind of frame step: where the core is
halted or waits, where it executes an instruction to its end, and, element by element, where a cycle runs at all. -/

namespace Sys2Proof.Machine

section

variable {s t : State} {k : Keys} {i : Instr} {p : Part} {j : Fin 16} {ks ls : List Keys}

theorem OnlyChanges.refl (ps : List Part) (s : State) : OnlyChanges ps s s := by
  intro p _; cases p <;> simp [Same]

theorem onlyChanges_beginFrame (s : State) (k : Keys) : OnlyChanges [.changed, .keys, .frameNo] s (s.beginFrame k) := by
  intro p hp; cases p <;> simp [Same] at hp ⊢

theorem exists_frameStep (k : Keys) (s : State) : ∃ t, frameStep k s = .next t := by
  obtain ⟨-, e⟩ | ⟨-, -, e⟩ | ⟨-, i, -, e⟩ | ⟨-, -, e⟩ | ⟨-, -, -, e⟩ := frameStep_cases s k
  · exact ⟨_, e⟩
  · exact ⟨_, e⟩
  · exact ⟨_, e.trans (exec_eq i _)⟩
  · exact ⟨_, e⟩
  · exact ⟨_, e⟩

/-! ### Where a cycle runs -/

theorem frameStep_of_nextInstr (hrun : s.running) (hi : s.nextInstr = some i) :
    frameStep k s = exec i (s.beforeCycle k) := by
  rw [frameStep_running s k hrun, cycle_of_some (s.beforeCycle k) hi]

/-- An instruction that meets no fault leaves its effect on the state after steps 1, 2 and the countdown. -/
theorem eq_effect_of_frameStep (ht : frameStep k s = .next t) (hrun : s.running) (hi : s.nextInstr = some i)
    (hf : faultOf (s.beforeCycle k) i = none) : t = effect (s.beforeCycle k) i := by
  rw [frameStep_of_nextInstr hrun hi, exec_of_noFault hf] at ht
  exact (Host.Outcome.next.inj ht).symm

/-- What an instruction can write, a fault included. -/
theorem onlyChanges_exec (ht : exec i s = .next t) : OnlyChanges (mayWrite i ++ [.halt, .cause]) s t := by
  rw [exec_eq] at ht
  obtain rfl := Host.Outcome.next.inj ht
  cases faultOf s i with
  | none => exact (onlyChanges_effect i s).mono (by simp)
  | some f => exact (onlyChanges_raise s f).mono (by simp)

/-- An element that the instruction of the cycle, if there is one, does not write ends as steps 1, 2 and the countdown left it,
HALT and CAUSE aside. -/
theorem same_of_frameStep (ht : frameStep k s = .next t) (hrun : s.running) (hp : p ∉ [Part.halt, .cause])
    (hw : ∀ i, s.nextInstr = some i → p ∉ mayWrite i) : Same p (s.beforeCycle k) t := by
  rw [frameStep_running s k hrun] at ht
  cases hi : s.nextInstr with
  | some i =>
    rw [cycle_of_some (s.beforeCycle k) hi] at ht
    exact onlyChanges_exec ht p (by simpa [hw i hi] using hp)
  | none =>
    obtain ⟨-, e⟩ | ⟨-, e⟩ := cycle_of_none (s.beforeCycle k) hi
    · obtain rfl := Host.Outcome.next.inj (e.symm.trans ht)
      exact onlyChanges_raise _ _ p hp
    · obtain rfl := Host.Outcome.next.inj (e.symm.trans ht)
      exact OnlyChanges.refl _ _ p hp

theorem eq_ldDtVx_of_dt_mem_mayWrite (h : .dt ∈ mayWrite i) : ∃ x, i = .ldDtVx x := by
  cases i
  case ldDtVx x => exact ⟨x, rfl⟩
  all_goals simp [mayWrite] at h

theorem eq_ldStVx_of_st_mem_mayWrite (h : .st ∈ mayWrite i) : ∃ x, i = .ldStVx x := by
  cases i
  case ldStVx x => exact ⟨x, rfl⟩
  all_goals simp [mayWrite] at h

/-- An effect sets CHANGED exactly in CLS and DRW, the only instructions that write it (10_state.md R31). -/
theorem effect_changed_iff (hs : s.changed = false) :
    (effect s i).changed = true ↔ i = .cls ∨ ∃ x y n, i = .drw x y n := by
  by_cases hw : .changed ∈ mayWrite i
  · cases i
    case cls => exact ⟨fun _ => .inl rfl, fun _ => rfl⟩
    case drw x y n => exact ⟨fun _ => .inr ⟨x, y, n, rfl⟩, fun _ => rfl⟩
    all_goals simp [mayWrite] at hw
  · have hsame : (effect s i).changed = s.changed := onlyChanges_effect i s .changed hw
    rw [hsame, hs]
    refine ⟨nofun, ?_⟩
    rintro (rfl | ⟨x, y, n, rfl⟩) <;> exact absurd (by simp [mayWrite]) hw

/-- PC after a key skip: by 4 if the key it names is pressed (SKP) or not (SKNP) (44_timers_keys.md R213, R214). -/
theorem effect_keySkip_pc {x : Nibble} (hj : (s.reg x).toNat = j.val) :
    (effect s (.skp x)).pc = s.pc + (if s.keys[j] = true then 4 else 2) ∧
    (effect s (.sknp x)).pc = s.pc + (if s.keys[j] = false then 4 else 2) := by
  have hdown : s.keyDown (s.reg x) = s.keys[j] := by
    rw [s.keyDown_of_le (by omega)]
    simp only [hj, Fin.getElem_fin]
  simp only [effect, State.skipIf_pc, hdown, Bool.not_eq_true', and_self]

/-! ### Where none runs: the core is halted, or a key-wait is latched -/

theorem eq_serveKeyWait_of_frameStep (ht : frameStep k s = .next t) (hh : s.halt = false) (hw : s.wait = true) :
    t = (s.beginFrame k).serveKeyWait :=
  Host.Outcome.next.inj (ht.symm.trans (frameStep_waiting s k hh hw))

/-- Step 3 of the frame step ends the wait exactly when a key is pressed (R234). -/
theorem serveKeyWait_wait_iff (hw : s.wait = true) : s.serveKeyWait.wait = false ↔ ∃ j : Fin 16, s.keys[j] = true := by
  cases hk : leastPressed s.keys with
  | some j =>
    rw [s.serveKeyWait_some hk]
    exact ⟨fun _ => ⟨j, ((leastPressed_eq_some s.keys j).mp hk).1⟩, fun _ => rfl⟩
  | none =>
    have hnone := (leastPressed_eq_none s.keys).mp hk
    rw [s.serveKeyWait_none hk, hw]
    exact ⟨nofun, fun ⟨j, hj⟩ => absurd ((hnone j).symm.trans hj) nofun⟩

/-- The only register step 3 can write is V[WAITREG]. -/
theorem serveKeyWait_reg_of_ne {r : Nibble} (hr : r ≠ s.waitReg) : s.serveKeyWait.reg r = s.reg r := by
  cases hk : leastPressed s.keys with
  | some j => rw [s.serveKeyWait_some hk, State.reg_setReg, if_neg hr, State.setWait_reg]
  | none => rw [s.serveKeyWait_none hk]

/-- Outside a cycle only the key's register, WAIT, KEYS, CHANGED and the model's input counter can change (R243). -/
theorem onlyChanges_of_not_running (ht : frameStep k s = .next t) (h : s.halt = true ∨ s.wait = true) :
    OnlyChanges [.v, .wait, .keys, .changed, .frameNo] s t ∧ ∀ r, r ≠ s.waitReg → t.reg r = s.reg r := by
  cases hh : s.halt with
  | true =>
    obtain rfl := Host.Outcome.next.inj ((frameStep_halted s k hh).symm.trans ht)
    exact ⟨.refl _ _, fun _ _ => rfl⟩
  | false =>
    have hw : s.wait = true := h.resolve_left (by simp [hh])
    obtain rfl := eq_serveKeyWait_of_frameStep ht hh hw
    exact ⟨((onlyChanges_beginFrame s k).trans (onlyChanges_serveKeyWait _)).mono (by simp),
      fun r hr => serveKeyWait_reg_of_ne hr⟩

/-- The state in which a key-wait of s ends that is delivered key j of the key input k (`frameStep_delivers`). -/
def State.deliver (s : State) (k : Keys) (j : Fin 16) : State :=
  ((s.beginFrame k).setWait false).setReg s.waitReg (BitVec.ofNat 8 j.val)

theorem frameStep_delivers (hh : s.halt = false) (hw : s.wait = true) (hj : k[j] = true)
    (hleast : ∀ j' : Fin 16, j' < j → k[j'] = false) : frameStep k s = .next (s.deliver k j) := by
  have hk : leastPressed (s.beginFrame k).keys = some j := (leastPressed_eq_some k j).mpr ⟨hj, hleast⟩
  rw [frameStep_waiting s k hh hw, State.serveKeyWait_some _ hk]
  rfl

theorem frameStep_goes_on_waiting (hh : s.halt = false) (hw : s.wait = true) (hk : ∀ j : Fin 16, k[j] = false) :
    frameStep k s = .next (s.beginFrame k) := by
  rw [frameStep_waiting s k hh hw, State.serveKeyWait_none _ ((leastPressed_eq_none k).mpr hk)]

theorem State.deliver_reg_waitReg_toNat : ((s.deliver k j).reg s.waitReg).toNat = j.val := by
  have := j.isLt
  simp only [State.deliver, State.reg_setReg, if_pos, BitVec.toNat_ofNat]
  omega

theorem State.deliver_reg_of_ne {r : Nibble} (hr : r ≠ s.waitReg) : (s.deliver k j).reg r = s.reg r := by
  simp [State.deliver, hr]

theorem onlyChanges_deliver (s : State) (k : Keys) (j : Fin 16) :
    OnlyChanges [.v, .wait, .keys, .changed, .frameNo] s (s.deliver k j) :=
  (((onlyChanges_beginFrame s k).trans (onlyChanges_setWait _ false)).trans (onlyChanges_setReg _ _ _)).mono (by simp)

/-! ### Runs -/

theorem runFrames_append (h : runFrames ks s = .next t) : runFrames (ks ++ ls) s = runFrames ls t := by
  induction ks generalizing s with
  | nil =>
    obtain rfl := Host.Outcome.next.inj h
    rfl
  | cons k ks ih =>
    obtain ⟨u, hu⟩ := exists_frameStep k s
    simp only [List.cons_append, runFrames, hu] at h ⊢
    exact ih h

/-- While no key is pressed a key-wait lasts, and only KEYS, CHANGED and the model's input counter move. -/
theorem runFrames_waiting (hh : s.halt = false) (hw : s.wait = true) (hks : ∀ q ∈ ks, ∀ j : Fin 16, q[j] = false) :
    ∃ t, runFrames ks s = .next t ∧ OnlyChanges [.keys, .changed, .frameNo] s t := by
  induction ks generalizing s with
  | nil => exact ⟨s, rfl, .refl _ s⟩
  | cons k ks ih =>
    obtain ⟨hk, hks⟩ := List.forall_mem_cons.mp hks
    obtain ⟨t, ht, hframe⟩ := ih (s := s.beginFrame k) hh hw hks
    simp only [runFrames, frameStep_goes_on_waiting hh hw hk]
    exact ⟨t, ht, ((onlyChanges_beginFrame s k).trans hframe).mono (by simp)⟩

/-- The next cycle of s runs a jump to its own address. -/
def State.AtSelfJump (nnn : Addr) (s : State) : Prop :=
  s.running ∧ s.nextInstr = some (.jp nnn) ∧ s.pc.toNat = nnn.toNat

/-- The cycle of a jump to its own address writes to PC what it holds. -/
theorem frameStep_of_atSelfJump {nnn : Addr} (h : s.AtSelfJump nnn) : frameStep k s = .next (s.beforeCycle k) := by
  obtain ⟨hrun, hi, hpc⟩ := h
  have htarget : zext16 nnn = (s.beforeCycle k).pc := by
    apply BitVec.eq_of_toNat_eq
    rw [zext16_toNat, State.beforeCycle_pc, hpc]
  rw [frameStep_of_nextInstr hrun hi, exec_of_noFault rfl, effect, htarget]
  rfl

end

/-! ### The statements -/

/-- Settles O9: a step is a frame step under the host's keys, and the state its cycle starts from is `State.beforeCycle`. -/
theorem stepRunsTheDecodedInstruction : Obligations.StepRunsTheDecodedInstruction := fun s op _ hrun hf hd =>
  frameStep_of_nextInstr (k := Config.keysIn s.frameNo) hrun (s.nextInstr_eq_some.mpr ⟨op, hf, hd⟩)

/-- Settles O19: a step is a frame step under the host's keys. -/
theorem everyStepAnswersANextState : Obligations.EveryStepAnswersANextState :=
  ⟨fun s => exists_frameStep (Config.keysIn s.frameNo) s, exists_frameStep⟩

/-- Settles O11: being the state s is kept by every frame step from a halted s, so by every run. -/
theorem haltedCoreIgnoresFrames : Obligations.HaltedCoreIgnoresFrames := by
  intro ks s h
  have hstep (k : Keys) (u : State) (hu : u = s) : ∃ t, frameStep k u = .next t ∧ t = s :=
    ⟨s, hu ▸ frameStep_halted s k h, rfl⟩
  obtain ⟨t, hrun, rfl⟩ := runFrames_keeps hstep ks s rfl
  exact ⟨hrun, frameStep_halted t _ h⟩

/-- Settles O12: step 1 clears CHANGED, and after it only the effect of CLS or DRW sets it; a fault leaves it cleared. -/
theorem changedTellsClearOrDraw : Obligations.ChangedTellsClearOrDraw := by
  intro k s hh
  obtain ⟨h, -⟩ | ⟨-, hw, e⟩ | ⟨hrun, i, hi, e⟩ | ⟨-, -, e⟩ | ⟨-, -, hi, e⟩ := frameStep_cases s k
  · exact absurd (hh.symm.trans h) nofun
  · have hchanged : (s.beginFrame k).serveKeyWait.changed = false :=
      onlyChanges_serveKeyWait (s.beginFrame k) .changed (by decide)
    exact ⟨_, e, by simp [hchanged, hw]⟩
  · refine ⟨_, e.trans (exec_eq i _), ?_⟩
    cases faultOf (s.beforeCycle k) i with
    | some f => simp
    | none =>
      have hhalt : (effect (s.beforeCycle k) i).halt = s.halt :=
        onlyChanges_effect i (s.beforeCycle k) .halt (halt_not_mem_mayWrite i)
      simp [effect_changed_iff (s := s.beforeCycle k) rfl, hhalt, hh, hrun.2, hi]
  · exact ⟨_, e, by simp⟩
  · exact ⟨_, e, by simp [hi]⟩

/-- Settles O13: no step after step 2 writes KEYS, so step 3 and the cycle's SKP or SKNP read keys_in. -/
theorem keysAreReplacedEachFrame : Obligations.KeysAreReplacedEachFrame := by
  intro k s hh
  obtain ⟨t, ht⟩ := exists_frameStep k s
  refine ⟨t, ht, ?_, fun hw => ?_, fun x j hw hj => ?_⟩
  · cases hw : s.wait with
    | true =>
      obtain rfl := eq_serveKeyWait_of_frameStep ht hh hw
      exact onlyChanges_serveKeyWait (s.beginFrame k) .keys (by decide)
    | false => exact same_of_frameStep (p := .keys) ht ⟨hh, hw⟩ (by decide) fun i _ => keys_not_mem_mayWrite i
  · obtain rfl := eq_serveKeyWait_of_frameStep ht hh hw
    exact serveKeyWait_wait_iff (s := s.beginFrame k) hw
  · obtain ⟨hskp, hsknp⟩ := faultOf_keySkip_of_eq (s := s.beforeCycle k) hj
    obtain ⟨hpc, hnpc⟩ := effect_keySkip_pc (s := s.beforeCycle k) hj
    exact ⟨fun hi => eq_effect_of_frameStep ht ⟨hh, hw⟩ hi hskp ▸ hpc,
      fun hi => eq_effect_of_frameStep ht ⟨hh, hw⟩ hi hsknp ▸ hnpc⟩

/-- Settles O14: the frame step delivers the key, or does no more than steps 1 and 2. -/
theorem keyWaitDeliversTheLeastKey : Obligations.KeyWaitDeliversTheLeastKey := by
  refine fun k s hh hw => ⟨fun j hj hleast => ?_, fun hk => ?_⟩
  · exact ⟨_, frameStep_delivers hh hw hj hleast, rfl, State.deliver_reg_waitReg_toNat,
      fun _ => State.deliver_reg_of_ne, rfl, rfl, onlyChanges_deliver s k j⟩
  · exact ⟨_, frameStep_goes_on_waiting hh hw hk, rfl, rfl, (onlyChanges_beginFrame s k).mono (by simp)⟩

/-- Settles O15: outside a cycle no timer is written; in one the countdown stands unless Fx15 or Fx18 overwrites it, and Fx07 reads it. -/
theorem timersCountOncePerCycleFrame : Obligations.TimersCountOncePerCycleFrame := by
  intro k s
  obtain ⟨t, ht⟩ := exists_frameStep k s
  refine ⟨t, ht, fun h => ?_, fun hrun hne => ?_, fun hrun hne => ?_, fun x hrun hi => ?_, fun x hrun hi => ?_,
    fun x hrun hi => ?_⟩
  · obtain ⟨hframe, -⟩ := onlyChanges_of_not_running ht h
    exact ⟨hframe .dt (by decide), hframe .st (by decide)⟩
  · have hdt : t.dt = countDown s.dt := same_of_frameStep (p := .dt) ht hrun (by decide) fun i hi hw => by
      obtain ⟨x, rfl⟩ := eq_ldDtVx_of_dt_mem_mayWrite hw
      exact hne x hi
    rw [hdt, countDown_toNat]
  · have hst : t.st = countDown s.st := same_of_frameStep (p := .st) ht hrun (by decide) fun i hi hw => by
      obtain ⟨x, rfl⟩ := eq_ldStVx_of_st_mem_mayWrite hw
      exact hne x hi
    rw [hst, countDown_toNat]
  · rw [eq_effect_of_frameStep ht hrun hi rfl]
    rfl
  · rw [eq_effect_of_frameStep ht hrun hi rfl]
    rfl
  · rw [eq_effect_of_frameStep ht hrun hi rfl]
    simp [effect]

/-- Settles O16: the report reads CHANGED and ST of the final state, whose ST is that of O15. -/
theorem reportIsTakenAtTheEnd : Obligations.ReportIsTakenAtTheEnd := by
  intro k s
  obtain ⟨t, ht, -, -, hcount, -, hset, -⟩ := timersCountOncePerCycleFrame k s
  have htone : (outputs t).tone = true ↔ t.st ≠ 0 := bne_iff_ne
  refine ⟨t, ht, rfl, htone, fun x hrun hi hx => ?_, fun hrun hone hne => ?_⟩
  · rw [htone, hset x hrun hi]
    exact hx
  · have hzero : t.st = 0 := BitVec.eq_of_toNat_eq (by rw [hcount hrun hne, hone]; rfl)
    rw [← Bool.not_eq_true, htone, hzero]
    exact not_not_intro rfl

/-- Settles O18: a cycle is one `exec`, or a fault in the fetch, or nothing, and what comes before it only counts down. -/
theorem frameStepNeverActsOutsideACycle : Obligations.FrameStepNeverActsOutsideACycle := by
  intro k s
  obtain ⟨t, ht⟩ := exists_frameStep k s
  have hbefore := onlyChanges_beforeCycle s k
  refine ⟨t, ht, onlyChanges_of_not_running ht, fun hrun => ?_, hbefore, ?_, ?_⟩
  · cases hi : s.nextInstr with
    | some i => exact .inl ⟨i, rfl, (frameStep_of_nextInstr hrun hi).symm.trans ht⟩
    | none =>
      have hcycle : OnlyChanges [.halt, .cause] (s.beforeCycle k) t := fun p hp =>
        same_of_frameStep ht hrun hp (by simp [hi])
      exact .inr ⟨rfl, (hbefore.trans hcycle).mono (by simp)⟩
  · rw [State.beforeCycle_dt, countDown_toNat]
  · rw [State.beforeCycle_st, countDown_toNat]

/-- Settles O21: each frame step jumps to where it stands and leaves PC and MEM, so the next one does the same, and the run only idles. -/
theorem jumpToItselfSpins : Obligations.JumpToItselfSpins := by
  intro ks s nnn hr hi hpc
  have hrun : runFrames ks s = .next (s.idle ks) :=
    runFrames_idle s ks (P := State.AtSelfJump nnn) (fun _ _ h => h) (fun _ _ => frameStep_of_atSelfJump) ⟨hr, hi, hpc⟩
  exact ⟨_, hrun, onlyChanges_idle s ks, s.idle_dt_toNat ks, s.idle_st_toNat ks⟩

/-- Settles O22: the keyless frames leave HALT, WAIT, WAITREG and the registers, so the key goes where it would have gone from s. -/
theorem keyWaitLastsUntilAKey : Obligations.KeyWaitLastsUntilAKey := by
  intro ks k j s hh hw hks hj hleast
  obtain ⟨u, hu, hframe⟩ := runFrames_waiting hh hw hks
  have hhalt : u.halt = false := (hframe .halt (by decide)).trans hh
  have hwait : u.wait = true := (hframe .wait (by decide)).trans hw
  have hwaitReg : s.waitReg = u.waitReg := (hframe .waitReg (by decide)).symm
  have hreg : ∀ r, u.reg r = s.reg r := hframe .v (by decide)
  have hrun : runFrames (ks ++ [k]) s = .next (u.deliver k j) := by
    simp only [runFrames_append hu, runFrames, frameStep_delivers hhalt hwait hj hleast]
  rw [hwaitReg]
  exact ⟨⟨u, hu, hframe⟩, _, hrun, ⟨hhalt, rfl⟩, State.deliver_reg_waitReg_toNat,
    fun r hr => (State.deliver_reg_of_ne hr).trans (hreg r), (hframe.trans (onlyChanges_deliver u k j)).mono (by simp)⟩

end Sys2Proof.Machine

/-! ### Faults and the output ports (60_exceptions.md): the state a fault leaves, and the only ways a frame step ends halted -/

namespace Sys2Proof.Machine

section

variable {s t : State} {k : Keys} {i : Instr} {f : Fault}

theorem exec_eq_raise_of_fault (h : faultOf s i = some f) : exec i s = .next (s.raise f) := by
  rw [exec_eq, h]; rfl

theorem effect_halt (i : Instr) (s : State) : (effect s i).halt = s.halt :=
  onlyChanges_effect i s .halt (halt_not_mem_mayWrite i)

theorem effect_cause (i : Instr) (s : State) : (effect s i).cause = s.cause :=
  onlyChanges_effect i s .cause (cause_not_mem_mayWrite i)

/-- An unrecognised word is no fault: its cycle leaves the state as it is (R131, R251). -/
theorem cycle_of_unrecognised (hpc : s.pc.toNat < 0xFFF) (hi : s.nextInstr = none) : cycle s = .next s := by
  obtain ⟨hnone, -⟩ | ⟨-, hcycle⟩ := cycle_of_none s hi
  · rw [State.fetch_eq_some_of_le hpc] at hnone
    cases hnone
  · exact hcycle

/-- Only a fault halts: an instruction that completes leaves HALT as it was. -/
theorem eq_raise_of_exec_halts (hs : s.halt = false) (ht : exec i s = .next t) (hh : t.halt = true) :
    ∃ f, t = s.raise f := by
  cases hf : faultOf s i with
  | some f => exact ⟨f, Host.Outcome.next.inj (ht.symm.trans (exec_eq_raise_of_fault hf))⟩
  | none =>
    obtain rfl := Host.Outcome.next.inj (ht.symm.trans (exec_of_noFault hf))
    rw [effect_halt, hs] at hh
    cases hh

/-- A frame step that halts the core is a fault of its cycle, in the fetch or in the instruction: step 3 of a key-wait and the cycle
at an unrecognised opcode leave HALT as it was. -/
theorem eq_raise_of_frameStep_halts (hs : s.halt = false) (ht : frameStep k s = .next t) (hh : t.halt = true) :
    s.wait = false ∧ ∃ f, t = (s.beforeCycle k).raise f := by
  obtain ⟨h, -⟩ | ⟨-, -, e⟩ | ⟨hrun, i, -, e⟩ | ⟨hrun, -, e⟩ | ⟨-, -, -, e⟩ := frameStep_cases s k
  · exact absurd (hs.symm.trans h) nofun
  · obtain rfl := Host.Outcome.next.inj (ht.symm.trans e)
    have hhalt : (s.beginFrame k).serveKeyWait.halt = s.halt := onlyChanges_serveKeyWait (s.beginFrame k) .halt (by decide)
    exact absurd (hs.symm.trans (hhalt.symm.trans hh)) nofun
  · exact ⟨hrun.2, eq_raise_of_exec_halts (s := s.beforeCycle k) hs (e.symm.trans ht) hh⟩
  · exact ⟨hrun.2, .fetchBounds, Host.Outcome.next.inj (ht.symm.trans e)⟩
  · obtain rfl := Host.Outcome.next.inj (ht.symm.trans e)
    exact absurd (hs.symm.trans hh) nofun

end

/-- Settles O27: the fault of the table or the effect, which writes neither HALT nor CAUSE; and a cycle without an instruction
faults exactly where its fetch fails. -/
theorem faultsAreThoseOfTheTable : Obligations.FaultsAreThoseOfTheTable :=
  ⟨fun _ _ _ h => exec_eq_raise_of_fault h,
   fun i s h => ⟨effect s i, exec_of_noFault h, effect_halt i s, effect_cause i s⟩,
   fun _ h => cycle_of_fetch_none (State.fetch_eq_none_of_le h),
   fun _ => cycle_of_unrecognised, rfl, rfl, rfl, rfl, rfl, rfl⟩

/-- Settles O28: the end state is the fault taken from the state after steps 1, 2 and the countdown, which `State.beforeCycle` is. -/
theorem faultsArePrecise : Obligations.FaultsArePrecise :=
  fun _ _ _ => eq_raise_of_frameStep_halts

/-- Settles O17: each port is an element of the state, and CAUSE is read as its code. -/
theorem outputsShowTheState : Obligations.OutputsShowTheState := by
  refine fun s => ⟨fun _ _ => rfl, rfl, bne_iff_ne.trans BitVec.toNat_ne, rfl, ?_⟩
  change (faultCode s.cause).toNat = _
  cases s.cause with
  | none => rfl
  | some f => cases f <;> rfl

end Sys2Proof.Machine

/-! ### Reset and load (70_reset_and_hazards.md): the values after reset, the bytes a load leaves, and the first frame step -/

namespace Sys2Proof.Machine

section

variable {s : State} {rom : List Byte} {k a : Nat}

theorem Memory.unlisted_of_lt (h : a < 80) : Memory.unlisted a = Config.fontTable[a] := dif_pos h

theorem State.reset_reg (r : Nibble) : State.reset.reg r = 0 := Vector.getElem_replicate _

/-- A load of the empty program is no load: the core then starts from the reset state. -/
theorem boot_nil : boot [] = State.reset := rfl

/-- A byte of the program below the cut is at its place from 0x200 on (R283). -/
theorem State.load_read_program (hm : s.mem.wf) (hk : k < rom.length) (hcut : k < 3584) :
    (s.load rom).mem.read (0x200 + k) = rom[k] := by
  rw [State.load_mem, Memory.read_writeBytes_add hm (by rw [List.length_take]; omega) (by rw [List.length_take]; omega),
    List.getElem_take]

/-- The load leaves every byte below 0x200 and beyond the copied program (R283). -/
theorem State.load_read_outside (hm : s.mem.wf) (ha : a < 0x200 ∨ 0x200 + min rom.length 3584 ≤ a) :
    (s.load rom).mem.read a = s.mem.read a := by
  apply Memory.read_writeBytes_outside hm <;> rw [List.length_take] <;> omega

/-- After reset and a load, the program stands at 0x200 and zeros follow it up to the end of memory (R283). -/
theorem boot_read_program (hk : k < 3584) : (boot rom).mem.read (0x200 + k) = rom[k]?.getD 0 := by
  by_cases hlen : k < rom.length
  · rw [boot, State.load_read_program State.reset_mem_wf hlen hk, List.getElem?_eq_getElem hlen, Option.getD_some]
  · rw [boot, State.load_read_outside State.reset_mem_wf (by omega), List.getElem?_eq_none (by omega), Option.getD_none]
    exact Memory.unlisted_of_le (by omega)

theorem boot_running : (boot rom).running := ⟨rfl, rfl⟩

/-- The first fetch reads the first two bytes of the program, or zeros where it is shorter (R283, R285). -/
theorem boot_fetch : (boot rom).fetch = some (rom[0]?.getD 0 ++ rom[1]?.getD 0) := by
  have hpc : (boot rom).pc.toNat = 0x200 := rfl
  have hhigh : (boot rom).mem.read 0x200 = rom[0]?.getD 0 := boot_read_program (k := 0) (by omega)
  have hlow : (boot rom).mem.read (0x200 + 1) = rom[1]?.getD 0 := boot_read_program (by omega)
  rw [State.fetch_eq_some_of_le (by omega), hpc, hhigh, hlow]

end

/-- Settles O7: the copied block is the program's first 3584 bytes, and a load writes memory only. -/
theorem loadCopiesAtMost3584Bytes : Obligations.LoadCopiesAtMost3584Bytes := by
  refine ⟨fun s rom hm => ⟨fun k hk hcut => State.load_read_program hm hk hcut, fun a => State.load_read_outside hm,
    onlyChanges_setMem s _⟩, fun rom a hlo hhi => ?_⟩
  obtain ⟨k, rfl⟩ : ∃ k, a = 0x200 + k := ⟨a - 0x200, by omega⟩
  rw [boot_read_program (by omega), List.getElem?_eq_none (by omega), Option.getD_none]

/-- Settles O8: the loaded core runs, its fetch finds the program's first word, and steps 1, 2 and the countdown turn the loaded
state into the one the statement names, the timers being 0. -/
theorem firstFrameRunsTheWordAt0x200 : Obligations.FirstFrameRunsTheWordAt0x200 := by
  intro rom start
  have hstart : (boot rom).beforeCycle (Config.keysIn 0) = start := rfl
  split
  case h_1 i hd => exact stepRunsTheDecodedInstruction (boot rom) _ i boot_running boot_fetch hd
  case h_2 e hd =>
    rw [← hstart]
    exact frameStep_of_atUnrecognised _ (State.atUnrecognised_of_fetch boot_running boot_fetch hd)

/-- Settles O6: construction and the reset port leave the same state but for the model's two counters, which no value of R281 and
R282 depends on. -/
theorem resetLeavesTheSpecsValues : Obligations.ResetLeavesTheSpecsValues := by
  intro s t ht
  obtain ⟨f, d, rfl⟩ : ∃ f d, t = { State.reset with frameNo := f, drawNo := d } := by
    obtain rfl | rfl := ht <;> exact ⟨_, _, rfl⟩
  exact ⟨State.reset_reg, rfl, rfl, rfl, rfl, rfl, fun k => Vector.getElem_replicate k.isLt, rfl, rfl, Framebuffer.pixel_blank,
    rfl, rfl, rfl, fun _ => Memory.unlisted_of_lt, fun _ ha _ => Memory.unlisted_of_le ha⟩

/-- Settles O25: the reset state is the one the empty program is loaded into, and every loaded state meets the invariant. -/
theorem resetMeetsTheInvariant : Obligations.ResetMeetsTheInvariant := by
  rw [Obligations.ResetMeetsTheInvariant, ← boot_nil]
  exact boot_inv []

end Sys2Proof.Machine
